-- ==== Sys2Proof/Word.lean ====
section
/-! DEFINITION. The word types of CORE (00_scope.md R10 to R12): every value is unsigned, bit 0 is
the least significant. -/

namespace Sys2Proof

/-- `u32` (R11). -/
abbrev Word := BitVec 32

/-- `u8` (R11). -/
abbrev Byte := BitVec 8

/-- `u4` (R11): a nibble, a response code, an OP. -/
abbrev Nibble := BitVec 4

/-- The eight key words `K0..K7` (R21, R100). -/
abbrev KeyWords := Vector Word 8

/-- A round-key schedule: "exactly 32 unsigned 32-bit words" (R23). -/
abbrev Schedule := Vector Word 32

/-- The S-box: 16 rows (nibble value) of 8 columns (nibble position) of 4-bit entries (R27, R141). -/
abbrev SBox := Vector (Vector Nibble 8) 16

end Sys2Proof
end

