-- ==== Sys2Proof/Config.lean ====
section
/-! DEFINITION. The OPEN parameters a model of CORE takes as arguments (00_scope.md R9), and the
free values (10_state.md R35). The default parameters stand in Machine/Parameters.lean. -/

namespace Sys2Proof

/-- The OPEN parameters of R9, exactly. Only `sbox` changes any value a command returns; the
latencies, `roundsPerCycle` and `base` change no response word, result byte or state value. -/
structure Config where
  /-- SBOX (R27): `sbox[v][i]` replaces nibble value `v` at nibble position `i`. -/
  sbox : SBox
  /-- LAT_LDKEY (R239). -/
  latLdkey : Nat
  /-- LAT_DERIVE (R239). -/
  latDerive : Nat
  /-- LAT_XFORM (R239). -/
  latXform : Nat
  /-- LAT_SMALL (R239). -/
  latSmall : Nat
  /-- ROUNDS_PER_CYCLE (R170): it has no effect on results, and nothing here reads it. -/
  roundsPerCycle : Nat
  /-- BASE (R63): the platform's bus address of CORE, if any; nothing here reads it. -/
  base : Nat
  deriving DecidableEq, Repr

/-- ROUNDS_PER_CYCLE is one of 1, 2, 4, 8, 16, 32 (00_scope.md section 4). -/
def Config.wf (c : Config) : Bool :=
  [1, 2, 4, 8, 16, 32].contains c.roundsPerCycle

/-- FREE VALUES: the words that KEY and SCHED hold after a reset edge, which R35 leaves
unspecified ("a model must not assume any value"). No body: nothing can be proved of a value.
Log entry 2. -/
opaque Config.freeWord : Nat → Word

end Sys2Proof
end

