-- ==== Sys2Proof/Syntax.lean ====
section
/-! DEFINITION. The commands of CORE (30_encoding.md R70 to R83): one constructor per row of the
opcode map R76, and the forms in which commands and responses cross the interface (R16). -/

namespace Sys2Proof

/-- The ten operations of the opcode map (R76). -/
inductive Op where
  | nop | ldkey | derenc | derdec | wrsched | rdsched | xform | subst | rotl11 | rdstat
  deriving DecidableEq, Repr

/-- A decoded command with its operands assembled (R77). LDKEY and XFORM keep their payload as a
byte sequence of any length: LEN is its length, checked when the command runs (R73). -/
inductive Instr where
  /-- NOP (R190). -/
  | nop
  /-- LDKEY with payload `p`, LEN = length of `p` (R101). -/
  | ldkey (p : List Byte)
  /-- DERENC (R106). -/
  | derenc
  /-- DERDEC (R111). -/
  | derdec
  /-- WRSCHED of the word `w` at index `i` (R113). -/
  | wrsched (i : Fin 32) (w : Word)
  /-- RDSCHED of index `i` (R114). -/
  | rdsched (i : Fin 32)
  /-- XFORM with payload `p`, LEN = length of `p` (R165). -/
  | xform (p : List Byte)
  /-- SUBST of `w` (R146). -/
  | subst (w : Word)
  /-- ROTL11 of `w` (R147). -/
  | rotl11 (w : Word)
  /-- RDSTAT (R191). -/
  | rdstat
  deriving DecidableEq, Repr

/-- `Command = (CW, P)` with `len(P) = CW[23:16]` (R16); the length condition is `Command.wf`. -/
structure Command where
  cw : Word
  payload : List Byte
  deriving DecidableEq, Repr

/-- `Response = (RW, R)` (R16). -/
structure Response where
  rw : Word
  result : List Byte
  deriving DecidableEq, Repr

/-- The response codes that are ever produced (60_exceptions.md R200). -/
inductive Code where
  | ok | invalidKeyLength | invalidBlockLength | illegalCommand | noKey | scheduleUnset
  deriving DecidableEq, Repr

/-- One row of the opcode map R76. -/
structure Row where
  op : Op
  mtch : Word
  mask : Word
  deriving DecidableEq, Repr

/-- Why a command word and payload are not an instruction. -/
inductive Reject where
  /-- CW matches no row of R76: IllegalCommand (R75, R203). -/
  | illegalCommand
  /-- CW matches a row, but the payload is not LEN bytes long: not a command at all (R16). -/
  | payloadLength
  deriving DecidableEq, Repr

/-- The pseudo-commands of R83. -/
inductive Pseudo where
  | ldsched (ws : Schedule)
  | dumpsched
  | encrypt (p : List Byte)
  | decrypt (p : List Byte)
  deriving DecidableEq, Repr

end Sys2Proof
end

