-- ==== Sys2Proof/Decode.lean ====
section
/-! DEFINITION. From command words to commands and back: the fields of CW (30_encoding.md R70), the
big-endian packing primitives (00_scope.md R13), the opcode map (R76), operand assembly (R77), the
decoder (R75) and the encoder (R82). -/

namespace Sys2Proof

/-! ## Byte packing -/

/-- `BE32(p, o)` (R13): `p[o]` in bits 31:24, `p[o+3]` in bits 7:0. The commands read only bytes
inside the payload, so the value past its end is never used. -/
def be32 (p : List Byte) (o : Nat) : Word :=
  p.getD o 0 ++ p.getD (o + 1) 0 ++ p.getD (o + 2) 0 ++ p.getD (o + 3) 0

/-- `bytesBE32(w)` (R13): the most significant byte first. -/
def bytesBE32 (w : Word) : List Byte :=
  [w.extractLsb' 24 8, w.extractLsb' 16 8, w.extractLsb' 8 8, w.extractLsb' 0 8]

/-! ## Fields of the command word -/

/-- `OP = CW[3:0]` (R71). -/
def cwOp (cw : Word) : Nibble := cw.extractLsb' 0 4

/-- `IDX = CW[12:8]`, zero-extended (R72). -/
def cwIdx (cw : Word) : Fin 32 := ⟨(cw.extractLsb' 8 5).toNat, (cw.extractLsb' 8 5).isLt⟩

/-- `LEN = CW[23:16]`, zero-extended (R73). -/
def cwLen (cw : Word) : Nat := (cw.extractLsb' 16 8).toNat

/-- A command carries exactly LEN payload bytes (R16, R56). -/
def Command.wf (c : Command) : Bool := c.payload.length == cwLen c.cw

/-! ## The opcode map -/

/-- The OP value of each operation (R76). -/
def Op.code : Op → Nibble
  | .nop => 0x0#4
  | .ldkey => 0x1#4
  | .derenc => 0x2#4
  | .derdec => 0x3#4
  | .wrsched => 0x4#4
  | .rdsched => 0x5#4
  | .xform => 0x6#4
  | .subst => 0x7#4
  | .rotl11 => 0x8#4
  | .rdstat => 0x9#4

/-- The opcode map of R76: match and mask of each row, as the table gives them. -/
def opTable : List Row :=
  [⟨.nop,     0x00000000#32, 0xFFFFFFFF#32⟩,
   ⟨.ldkey,   0x00000001#32, 0xFF00FFFF#32⟩,
   ⟨.derenc,  0x00000002#32, 0xFFFFFFFF#32⟩,
   ⟨.derdec,  0x00000003#32, 0xFFFFFFFF#32⟩,
   ⟨.wrsched, 0x00040004#32, 0xFFFFE0FF#32⟩,
   ⟨.rdsched, 0x00000005#32, 0xFFFFE0FF#32⟩,
   ⟨.xform,   0x00000006#32, 0xFF00FFFF#32⟩,
   ⟨.subst,   0x00040007#32, 0xFFFFFFFF#32⟩,
   ⟨.rotl11,  0x00040008#32, 0xFFFFFFFF#32⟩,
   ⟨.rdstat,  0x00000009#32, 0xFFFFFFFF#32⟩]

/-- "CW is decoded as command X exactly when (CW AND mask_X) = match_X" (R75). -/
def Row.matches (r : Row) (cw : Word) : Bool := cw &&& r.mask == r.mtch

/-- The table lookup of R75. It reads CW alone. -/
def lookup (cw : Word) : Option Op := (opTable.find? (·.matches cw)).map (·.op)

/-! ## Decoding -/

/-- Operand assembly (R77), for a command word of the row `op` and its payload. -/
def assemble (op : Op) (cw : Word) (p : List Byte) : Instr :=
  match op with
  | .nop => .nop
  | .ldkey => .ldkey p
  | .derenc => .derenc
  | .derdec => .derdec
  | .wrsched => .wrsched (cwIdx cw) (be32 p 0)
  | .rdsched => .rdsched (cwIdx cw)
  | .xform => .xform p
  | .subst => .subst (be32 p 0)
  | .rotl11 => .rotl11 (be32 p 0)
  | .rdstat => .rdstat

/-- Decode a command word with its payload. Legality is decided from CW alone, before anything
else (R75, R203). -/
def decode (cw : Word) (p : List Byte) : Except Reject Instr :=
  match lookup cw with
  | none => .error .illegalCommand
  | some op => if p.length = cwLen cw then .ok (assemble op cw p) else .error .payloadLength

/-! ## Encoding -/

/-- The row of the opcode map an instruction belongs to. -/
def Instr.op : Instr → Op
  | .nop => .nop
  | .ldkey _ => .ldkey
  | .derenc => .derenc
  | .derdec => .derdec
  | .wrsched _ _ => .wrsched
  | .rdsched _ => .rdsched
  | .xform _ => .xform
  | .subst _ => .subst
  | .rotl11 _ => .rotl11
  | .rdstat => .rdstat

/-- The IDX field: the index of WRSCHED and RDSCHED, 0 for every other command (R70). -/
def Instr.idx : Instr → Nat
  | .wrsched i _ => i.val
  | .rdsched i => i.val
  | _ => 0

/-- The payload bytes P of an instruction (R77, R82: a word becomes `bytesBE32(word)`). -/
def Instr.payload : Instr → List Byte
  | .ldkey p => p
  | .xform p => p
  | .wrsched _ w => bytesBE32 w
  | .subst w => bytesBE32 w
  | .rotl11 w => bytesBE32 w
  | _ => []

/-- `CW = OP | (IDX << 8) | (LEN << 16)`, followed by P (R82). -/
def encode (i : Instr) : Command :=
  { cw := i.op.code.setWidth 32 ||| (BitVec.ofNat 32 i.idx <<< 8)
      ||| (BitVec.ofNat 32 i.payload.length <<< 16)
    payload := i.payload }

/-! ## The host's view of one table word -/

/-- Bits 31..0 of a row's word are CW; payload byte k, if the word has it, is bits 39+8k..32+8k. -/
def tableCw (nbits w : Nat) : Word := BitVec.ofNat 32 (w % 2 ^ nbits)

/-- The LEN payload bytes that follow CW in the word; bits above `nbits` are 0. -/
def tablePayload (nbits w : Nat) : List Byte :=
  (List.range (cwLen (tableCw nbits w))).map fun k => BitVec.ofNat 8 ((w % 2 ^ nbits) >>> (32 + 8 * k))

/-- The instruction this model's decoder reads from a word of spec/opcode_table.json. -/
def decodeTableWord (nbits w : Nat) : Option Instr :=
  (decode (tableCw nbits w) (tablePayload nbits w)).toOption

end Sys2Proof
end

