-- ==== Sys2Proof/Machine/Parameters.lean ====
section
/-! DEFINITION. The default values of the OPEN parameters: the S-box table of 41_substitution.md R142
and the reference latencies of 70_reset_and_hazards.md R239; and how many cycles EXEC lasts (R240). -/

namespace Sys2Proof

/-- Rows v = 0..7 of the default table (R142), columns i = 0..7. PRESUMED by the spec itself
("from general knowledge, not in source", G2); log entry 8. -/
def defaultSBoxLow : List (Vector Nibble 8) :=
  [#v[4, 14, 5, 7, 6, 4, 13, 1],
   #v[10, 11, 8, 13, 12, 11, 11, 15],
   #v[9, 4, 1, 10, 7, 10, 4, 13],
   #v[2, 12, 13, 1, 1, 0, 1, 0],
   #v[13, 6, 10, 0, 5, 7, 3, 5],
   #v[8, 13, 3, 8, 15, 2, 15, 7],
   #v[0, 15, 4, 9, 13, 1, 5, 10],
   #v[14, 10, 2, 15, 8, 13, 9, 4]]

/-- Rows v = 8..15 of the default table (R142). -/
def defaultSBoxHigh : List (Vector Nibble 8) :=
  [#v[6, 2, 14, 14, 4, 3, 0, 9],
   #v[11, 3, 15, 4, 10, 6, 10, 2],
   #v[1, 8, 12, 6, 9, 8, 14, 3],
   #v[12, 1, 7, 12, 14, 5, 7, 14],
   #v[7, 0, 6, 11, 0, 9, 6, 6],
   #v[15, 7, 0, 2, 3, 12, 8, 11],
   #v[5, 5, 9, 5, 11, 15, 2, 8],
   #v[3, 9, 11, 3, 2, 14, 12, 12]]

/-- The default SBOX (R142). -/
def defaultSBox : SBox := ⟨⟨defaultSBoxLow ++ defaultSBoxHigh⟩, rfl⟩

/-- The defaults: R142's table, R239's reference latencies with one round per cycle. BASE has no
reference value; nothing reads it (log entry 7). -/
def Config.default : Config :=
  { sbox := defaultSBox
    latLdkey := 1
    latDerive := 1
    latXform := 32
    latSmall := 1
    roundsPerCycle := 1
    base := 0 }

/-- How many cycles EXEC lasts: a function of OP and of success alone (R239, R240). -/
def Config.execCycles (c : Config) (op : Nibble) (ok : Bool) : Nat :=
  if ok = false then c.latSmall
  else if op = Op.ldkey.code then c.latLdkey
  else if op = Op.derenc.code then c.latDerive
  else if op = Op.derdec.code then c.latDerive
  else if op = Op.xform.code then c.latXform
  else c.latSmall

end Sys2Proof
end

