-- ==== Sys2Proof/Machine/State.lean ====
section
/-! DEFINITION. All the state of CORE: the architectural state (10_state.md R20), the transport state
(30_encoding.md R86 to R88), the host's side (R84, R89, R91), the configuration (00_scope.md R9); the
reasons a step can stop; the state right after reset. -/

namespace Sys2Proof.Machine

/-- The transport phases of R86. `exec n` is EXEC with `n` cycles left; EXEC with none left is
passed through within one edge, never held. -/
inductive Phase where
  | idle
  | payload (n : Nat)
  | exec (n : Nat)
  | resp
  | out (n : Nat)
  deriving DecidableEq, Repr

/-- What the host drives at one rising edge of clk: the input ports of R84. A channel's valid and
data stand together: `some x` is valid = 1 with the word or byte `x`, `none` is valid = 0 (its data
is then not read). -/
structure PortIn where
  /-- rst -/
  rst : Bool
  /-- cmd_valid with cmd_word -/
  cmd : Option Word
  /-- in_valid with in_byte -/
  inb : Option Byte
  /-- rsp_ready -/
  rspReady : Bool
  /-- out_ready -/
  outReady : Bool
  deriving DecidableEq, Repr

/-- What CORE drives between two rising edges: the output ports of R84. `rsp` and `out` are `some`
exactly when rsp_valid and out_valid are 1; the spec gives their data no value otherwise. -/
structure PortOut where
  /-- cmd_ready -/
  cmdReady : Bool
  /-- in_ready -/
  inReady : Bool
  /-- rsp_valid with rsp_word -/
  rsp : Option Word
  /-- out_valid -/
  outValid : Bool
  /-- out_byte -/
  out : Option Byte
  deriving DecidableEq, Repr

/-- The whole machine, as plain data. -/
structure State where
  /-- The OPEN parameters (R9): configuration, not state. No step changes it (R27). -/
  cfg : Config
  /-- KEY[0..7] (R21). -/
  key : KeyWords
  /-- KV (R22). -/
  kv : Bool
  /-- SCHED[0..31] (R23). -/
  sched : Schedule
  /-- SV[0..31]: bit i is SV[i] (R24, R33). -/
  sv : BitVec 32
  /-- LAST (R26). -/
  last : Nibble
  /-- A rising edge with rst = 1 has occurred (R231). -/
  started : Bool
  /-- The transport phase (R86). -/
  phase : Phase
  /-- The command word taken (R70). -/
  cw : Word
  /-- The payload bytes taken so far, `P[0]` first (R87). -/
  payload : List Byte
  /-- RW (R78). -/
  rw : Word
  /-- R, the result bytes (R79). -/
  result : List Byte
  /-- The result bytes already transferred (R87). -/
  sent : List Byte
  /-- The command word the host has offered and that is not yet transferred (R89). -/
  cmdOffer : Option Word
  /-- The payload byte the host has offered and that is not yet transferred (R89). -/
  inOffer : Option Byte
  /-- What the host drives at the coming rising edges, the next first (R84). -/
  edges : List PortIn
  /-- The completed commands with their responses since the last reset, oldest first (R91). -/
  transcript : List (Command × Response)
  /-- The model's own field: how many free values have been used (log entry 2). -/
  fresh : Nat
  deriving DecidableEq, Repr

/-- Nothing stops CORE with a fault: every error is a response code (R207), and there are no traps
(R209). So there is no fault reason. -/
inductive Fault where
  deriving DecidableEq, Repr

/-- Why the model refuses to go on. All are safe: the model says nothing where the spec gives no
meaning. -/
inductive Refusal where
  /-- An instruction without a meaning in this model, by its mnemonic. Raised by no arm of `exec`. -/
  | notModelled (mnemonic : String)
  /-- A rising edge with rst = 0 before any with rst = 1: "A run that does not begin with a reset has
  no meaning in this spec, and a model refuses it" (R231). Raised by `edge`. Safe. -/
  | runBeforeReset
  /-- The host dropped or changed an offered word or byte before its transfer: "The spec gives that no
  meaning, and a model refuses it" (R89). Raised by `edge`. Safe. -/
  | hostBrokeDuty
  /-- A response with a code of 6 to 15: "It must refuse, not interpret it" (R206). Raised by `edge`,
  in states no run reaches. Safe. -/
  | reservedCode
  /-- The bytes presented with a command word are not LEN many, so the pair is no command (R16).
  Raised by `runLatched`, in states no run reaches. Safe. -/
  | notACommand
  deriving DecidableEq, Repr

/-- CORE right after reset (R34, R230, R233): KV = 0, SV = 0, LAST = 0, phase IDLE. KEY and SCHED are
unspecified after reset (R35): DESIGN CHOICE zero, log entry 1. Nothing is loaded: the host drives
nothing yet (log entry 5). -/
def State.reset : State :=
  { cfg := Config.default
    key := Vector.replicate 8 0
    kv := false
    sched := Vector.replicate 32 0
    sv := 0
    last := 0
    started := true
    phase := .idle
    cw := 0
    payload := []
    rw := 0
    result := []
    sent := []
    cmdOffer := none
    inOffer := none
    edges := []
    transcript := []
    fresh := 0 }

end Sys2Proof.Machine
end

