-- ==== Sys2Proof/Machine/Flags.lean ====
section
/-! DEFINITION. The response codes (60_exceptions.md R200), the valid bits (10_state.md R22, R24, R25),
the STATUS and SVMASK words (R32, R33) and the response word (30_encoding.md R78). -/

namespace Sys2Proof.Machine

/-- The value of each response code (R200). -/
def codeBits : Code → Nibble
  | .ok => 0
  | .invalidKeyLength => 1
  | .invalidBlockLength => 2
  | .illegalCommand => 3
  | .noKey => 4
  | .scheduleUnset => 5

/-- RW: RES = 0 in 31:16, RLEN in 15:8, OPE in 7:4, CODE in 3:0 (R78). -/
def responseWord (c : Code) (op : Nibble) (rlen : Nat) : Word :=
  0#16 ++ BitVec.ofNat 8 rlen ++ op ++ codeBits c

/-- RW.CODE (R78). -/
def rwCode (rw : Word) : Nibble := rw.extractLsb' 0 4

/-- RW.OPE (R78). -/
def rwOpe (rw : Word) : Nibble := rw.extractLsb' 4 4

/-- RW.RLEN (R78). -/
def rwRlen (rw : Word) : Nat := (rw.extractLsb' 8 8).toNat

/-- Codes 6 to 15 are never produced (R206). -/
def reservedCode (c : Nibble) : Bool := 5 < c.toNat

/-- `SV[i]` (R24). -/
def schedValid (s : State) (i : Fin 32) : Bool := s.sv.getLsbD i.val

/-- SVALL: 1 exactly when every SV bit is 1 (R25). Not stored. -/
def svAll (s : State) : Bool := s.sv == BitVec.allOnes 32

/-- `SV[i] <- 1` (R24). -/
def markValid (i : Fin 32) (sv : BitVec 32) : BitVec 32 := sv ||| (1#32 <<< i.val)

/-- STATUS = `(LAST << 4) | (SVALL << 1) | KV`, every other bit 0 (R32, R191). -/
def statusWord (s : State) : Word :=
  (s.last.setWidth 32 <<< 4) ||| ((BitVec.ofBool (svAll s)).setWidth 32 <<< 1)
    ||| (BitVec.ofBool s.kv).setWidth 32

/-- SVMASK: bit i is `SV[i]` (R33). -/
def svMask (s : State) : Word := s.sv

end Sys2Proof.Machine
end

