-- ==== Sys2Proof/Machine/Operands.lean ====
section
/-! DEFINITION. The operand forms of 30_encoding.md R77 and the nibble and rotation primitives of
00_scope.md R10, R14. -/

namespace Sys2Proof.Machine

/-- `keyWords(P)`: `Kj = BE32(P, 4j)`, no reordering (R100). -/
def keyWords (p : List Byte) : KeyWords := Vector.ofFn fun j => be32 p (4 * j.val)

/-- The two halves of a block while it is transformed (R28, R52). -/
structure Halves where
  a : Word
  b : Word
  deriving DecidableEq, Repr

/-- `B = BE32(P, 0)`, `A = BE32(P, 4)` (R52). -/
def splitBlock (p : List Byte) : Halves := { a := be32 p 4, b := be32 p 0 }

/-- The output block is `bytesBE32(B) ++ bytesBE32(A)` (R52). -/
def joinBlock (h : Halves) : List Byte := bytesBE32 h.b ++ bytesBE32 h.a

/-- `nib(v, i) = v[4i+3:4i]` (R10). -/
def nib (v : Word) (i : Fin 8) : Nibble := v.extractLsb' (4 * i.val) 4

/-- `rotl32(x, n)` for 0 <= n <= 31 (R14). -/
def rotl32 (x : Word) (n : Nat) : Word :=
  if n = 0 then x else (x <<< n) ||| (x >>> (32 - n))

end Sys2Proof.Machine
end

