-- ==== Sys2Proof/Machine/Ops.lean ====
section
/-! DEFINITION. The named operations over the registers of CORE, and the one way a command ends: with a
response (00_scope.md R15). Raising an error is ONE shared operation (60_exceptions.md R207); CORE has
no trap entry and no return from one (R209, R210). -/

namespace Sys2Proof.Machine

/-- What `exec` and `step` answer. -/
abbrev Result := Host.Outcome State Fault Refusal

/-! ## Registers -/

/-- KEY[0..7] <- k, all eight words together (R21). -/
def writeKey (k : KeyWords) (s : State) : State := { s with key := k }

/-- KV <- 1 (R22): only reset clears it. -/
def setKeyValid (s : State) : State := { s with kv := true }

/-- `SCHED[i]` (R23). -/
def readSched (i : Fin 32) (s : State) : Word := s.sched[i]

/-- `SCHED[i] <- w; SV[i] <- 1` (R113). -/
def writeSched (i : Fin 32) (w : Word) (s : State) : State :=
  { s with sched := s.sched.set i w, sv := markValid i s.sv }

/-- `SCHED[r] <- S[r]; SV[r] <- 1` for every r (R106, R111). -/
def writeSchedAll (ws : Schedule) (s : State) : State :=
  { s with sched := ws, sv := BitVec.allOnes 32 }

/-- LAST <- code (R26). -/
def setLast (c : Code) (s : State) : State := { s with last := codeBits c }

/-! ## Ending a command -/

/-- `respond(code, r)` (R15): RW and R become the command's response, RLEN = len(r), OPE = `op`
(R78). -/
def respond (c : Code) (op : Nibble) (r : List Byte) (s : State) : State :=
  { s with rw := responseWord c op r.length, result := r }

/-- `LAST <- 0; respond(OK, r)`: how every successful command but RDSTAT ends. -/
def finish (op : Nibble) (r : List Byte) (s : State) : Result :=
  .next (respond .ok op r (setLast .ok s))

/-- `LAST <- E; raise E` (R207): LAST takes the code, the response has no result bytes, and nothing
else changes. -/
def raise (c : Code) (op : Nibble) (s : State) : Result :=
  .next (respond c op [] (setLast c s))

/-! ## The architectural state as a whole -/

/-- R20: "CORE's architectural state is exactly the following." -/
structure Arch where
  key : KeyWords
  kv : Bool
  sched : Schedule
  sv : BitVec 32
  last : Nibble
  deriving DecidableEq, Repr

/-- The architectural part of a state (R20). -/
def archOf (s : State) : Arch :=
  { key := s.key, kv := s.kv, sched := s.sched, sv := s.sv, last := s.last }

end Sys2Proof.Machine
end

