-- ==== Sys2Proof/Machine/Control.lean ====
section
/-! DEFINITION. The control commands NOP and RDSTAT (43_control.md), and the response to a command word
that matches no row (60_exceptions.md R203). -/

namespace Sys2Proof.Machine

/-- NOP (R190): it clears LAST. -/
def execNop (s : State) : Result := finish Op.nop.code [] s

/-- RDSTAT (R191): STATUS then SVMASK. The only command that leaves LAST unchanged (R26). -/
def execRdstat (s : State) : Result :=
  .next (respond .ok Op.rdstat.code (bytesBE32 (statusWord s) ++ bytesBE32 (svMask s)) s)

/-- IllegalCommand for the word `cw` (R75, R203): OPE echoes CW[3:0] (R78). -/
def illegalCommand (cw : Word) (s : State) : Result := raise .illegalCommand (cwOp cw) s

end Sys2Proof.Machine
end

