-- ==== Sys2Proof/Machine/KeySchedule.lean ====
section
/-! DEFINITION. The key register and the key-schedule builder: LDKEY, DERENC, DERDEC, WRSCHED, RDSCHED
(40_key_schedule.md). -/

namespace Sys2Proof.Machine

/-- The encryption schedule: K0..K7 three times forward, then K7..K0 (R105). -/
def encSched (k : KeyWords) : Schedule :=
  Vector.ofFn fun r => if h : r.val < 24 then k[r.val % 8] else k[31 - r.val]

/-- The decryption schedule: K0..K7 once forward, then K7..K0 three times (R110). -/
def decSched (k : KeyWords) : Schedule :=
  Vector.ofFn fun r => if h : r.val < 8 then k[r.val] else k[7 - r.val % 8]

/-- `deriveSched(K, d)`: d = 0 is encryption order, d = 1 decryption order (R104). -/
def deriveSched (k : KeyWords) (d : Bool) : Schedule := if d then decSched k else encSched k

/-- Both derive commands (R106, R111), by the direction flag: OP bit 0 (R71). -/
def derive (op : Op) (s : State) : Result :=
  if s.kv = false then raise .noKey op.code s
  else finish op.code [] (writeSchedAll (deriveSched s.key (op.code.getLsbD 0)) s)

/-- LDKEY (R101, R102, R103). -/
def execLdkey (p : List Byte) (s : State) : Result :=
  if p.length ≠ 32 then raise .invalidKeyLength Op.ldkey.code s
  else finish Op.ldkey.code [] (setKeyValid (writeKey (keyWords p) s))

/-- DERENC (R106). -/
def execDerenc (s : State) : Result := derive .derenc s

/-- DERDEC (R111). -/
def execDerdec (s : State) : Result := derive .derdec s

/-- WRSCHED (R113): no check of the word, no need of KV. -/
def execWrsched (i : Fin 32) (w : Word) (s : State) : Result :=
  finish Op.wrsched.code [] (writeSched i w s)

/-- RDSCHED (R114). -/
def execRdsched (i : Fin 32) (s : State) : Result :=
  if schedValid s i = false then raise .scheduleUnset Op.rdsched.code s
  else finish Op.rdsched.code (bytesBE32 (readSched i s)) s

end Sys2Proof.Machine
end

