-- ==== Sys2Proof/Machine/Substitution.lean ====
section
/-! DEFINITION. The nibble substitution unit and the rotator, with their diagnostic commands SUBST and
ROTL11 (41_substitution.md). -/

namespace Sys2Proof.Machine

/-- `SBOX[v][i]` (R141). -/
def sboxEntry (sb : SBox) (v : Nibble) (i : Fin 8) : Nibble := sb[v.toNat][i]

/-- One lane of the substitution: `SBOX[v][i] << 4i` with `v = nib(w, i)` (R140, R144). -/
def substLane (sb : SBox) (w : Word) (i : Fin 8) : Word :=
  (sboxEntry sb (nib w i) i).setWidth 32 <<< (4 * i.val)

/-- `substitute(w)` (R140): the lanes i = 0..7, or-ed into r = 0 one by one. -/
def substitute (sb : SBox) (w : Word) : Word :=
  ([0, 1, 2, 3, 4, 5, 6, 7] : List (Fin 8)).foldl (fun r i => r ||| substLane sb w i) 0

/-- The rotator: by exactly 11 (R148). -/
def rotl11 (w : Word) : Word := rotl32 w 11

/-- SUBST (R146). -/
def execSubst (w : Word) (s : State) : Result :=
  finish Op.subst.code (bytesBE32 (substitute s.cfg.sbox w)) s

/-- ROTL11 (R147). -/
def execRotl11 (w : Word) (s : State) : Result :=
  finish Op.rotl11.code (bytesBE32 (rotl11 w)) s

end Sys2Proof.Machine
end

