-- ==== Sys2Proof/Machine/Transform.lean ====
section
/-! DEFINITION. The Feistel round engine and the block transform, XFORM (42_transform.md). -/

namespace Sys2Proof.Machine

/-- `F(a, k) = rotl32(substitute(a +32 k), 11)` (R160); the carry out is recorded nowhere. -/
def roundF (sb : SBox) (a k : Word) : Word := rotl11 (substitute sb (a + k))

/-- Round r with round key k: the halves swap, but for the last round (R162, R163). -/
def feistelRound (sb : SBox) (r : Nat) (k : Word) (h : Halves) : Halves :=
  let newA := roundF sb h.a k ^^^ h.b
  if r < 31 then { a := newA, b := h.a } else { a := h.a, b := newA }

/-- The round key of round r (R23). Only r = 0..31 occur. -/
def roundKey (ks : Schedule) (r : Nat) : Word := ks[r]?.getD 0

/-- n rounds from round r on, in order (R162). -/
def rounds (sb : SBox) (ks : Schedule) : Nat → Nat → Halves → Halves
  | 0, _, h => h
  | n + 1, r, h => rounds sb ks n (r + 1) (feistelRound sb r (roundKey ks r) h)

/-- `transform(P, S)`: exactly 32 rounds, r = 0..31 (R162). -/
def transform (sb : SBox) (p : List Byte) (ks : Schedule) : List Byte :=
  joinBlock (rounds sb ks 32 0 (splitBlock p))

/-- XFORM (R165): length before readiness (R208). -/
def execXform (p : List Byte) (s : State) : Result :=
  if p.length ≠ 8 then raise .invalidBlockLength Op.xform.code s
  else if svAll s = false then raise .scheduleUnset Op.xform.code s
  else finish Op.xform.code (transform s.cfg.sbox p s.sched) s

end Sys2Proof.Machine
end

