-- ==== Sys2Proof/Machine/Dispatch.lean ====
section
/-! DEFINITION. The meaning of each decoded command: one arm per constructor (00_scope.md R16). -/

namespace Sys2Proof.Machine

def exec (i : Instr) (s : State) : Host.Outcome State Fault Refusal :=
  match i with
  | .nop => Sys2Proof.Machine.execNop s
  | .ldkey p => Sys2Proof.Machine.execLdkey p s
  | .derenc => Sys2Proof.Machine.execDerenc s
  | .derdec => Sys2Proof.Machine.execDerdec s
  | .wrsched idx w => Sys2Proof.Machine.execWrsched idx w s
  | .rdsched idx => Sys2Proof.Machine.execRdsched idx s
  | .xform p => Sys2Proof.Machine.execXform p s
  | .subst w => Sys2Proof.Machine.execSubst w s
  | .rotl11 w => Sys2Proof.Machine.execRotl11 w s
  | .rdstat => Sys2Proof.Machine.execRdstat s

end Sys2Proof.Machine
end

