-- ==== Sys2Proof/Machine/Transaction.lean ====
section
/-! DEFINITION. The transaction level: a command word with its payload in, a response out
(00_scope.md R16), and a program as a list of commands (10_state.md R30, 20_memory.md R54). -/

namespace Sys2Proof.Machine

/-- Run the command standing in `cw` and `payload`: decode (R75), then its meaning, or IllegalCommand
(R203). -/
def runLatched (s : State) : Result :=
  match decode s.cw s.payload with
  | .ok i => exec i s
  | .error .illegalCommand => illegalCommand s.cw s
  | .error .payloadLength => .refused .notACommand

/-- The command, presented to CORE. -/
def latch (c : Command) (s : State) : State := { s with cw := c.cw, payload := c.payload }

/-- The response standing in `rw` and `result`. -/
def responseOf (s : State) : Response := { rw := s.rw, result := s.result }

/-- `exec : State × Command → State × Response` of R16; the response is `responseOf` the next
state. -/
def transact (c : Command) (s : State) : Result := runLatched (latch c s)

/-- The program: a sequential fold over the command list (R54), with the responses in order. -/
def runProgram : List Command → State → Host.Outcome (State × List Response) Fault Refusal
  | [], s => .next (s, [])
  | c :: cs, s =>
    match transact c s with
    | .next t =>
      match runProgram cs t with
      | .next (u, rs) => .next (u, responseOf t :: rs)
      | .fault f => .fault f
      | .refused r => .refused r
    | .fault f => .fault f
    | .refused r => .refused r

/-- The host's command index n: it advances by 1 when a command's response completes (R30). -/
def commandIndex (s : State) : Nat := s.transcript.length

end Sys2Proof.Machine
end

