-- ==== Sys2Proof/Machine/Transport.lean ====
section
/-! DEFINITION. The port-level interface (30_encoding.md R84 to R91) and reset
(70_reset_and_hazards.md R230 to R233): what one rising edge of clk does. -/

namespace Sys2Proof.Machine

/-! ## Outputs -/

/-- `out_byte = R[RLEN - n]` in OUT(n) (R88). -/
def outByte (n : Nat) (s : State) : Option Byte := s.result[rwRlen s.rw - n]?

/-- The outputs of each phase (R86), with rsp_word = RW in RESP (R88). -/
def outputs (s : State) : PortOut :=
  match s.phase with
  | .idle => { cmdReady := true, inReady := false, rsp := none, outValid := false, out := none }
  | .payload _ => { cmdReady := false, inReady := true, rsp := none, outValid := false, out := none }
  | .exec _ => { cmdReady := false, inReady := false, rsp := none, outValid := false, out := none }
  | .resp => { cmdReady := false, inReady := false, rsp := some s.rw, outValid := false, out := none }
  | .out n => { cmdReady := false, inReady := false, rsp := none, outValid := true, out := outByte n s }

/-! ## Transfers (R85): both valid and ready are 1 -/

/-- The word transferred on the cmd channel, if any. -/
def cmdTransfer (pin : PortIn) (s : State) : Option Word :=
  if (outputs s).cmdReady then pin.cmd else none

/-- The byte transferred on the in channel, if any. -/
def inTransfer (pin : PortIn) (s : State) : Option Byte :=
  if (outputs s).inReady then pin.inb else none

/-- Whether the response word is transferred. -/
def rspTransfer (pin : PortIn) (s : State) : Bool := (outputs s).rsp.isSome && pin.rspReady

/-- Whether a result byte is transferred. -/
def outTransfer (pin : PortIn) (s : State) : Bool := (outputs s).outValid && pin.outReady

/-! ## Reset -/

/-- n free values from the k-th on. -/
def freeWords (k n : Nat) : Vector Word n := Vector.ofFn fun j => Config.freeWord (k + j.val)

/-- A rising edge with rst = 1 (R230): KV, SV and LAST are cleared (R34), KEY and SCHED become
unspecified (R35; free values, log entry 2), the phase becomes IDLE, a command in progress is
aborted and its payload discarded (R232). A new run begins, so the transcript starts anew. -/
def resetEdge (s : State) : State :=
  { s with
    key := freeWords s.fresh 8
    kv := false
    sched := freeWords (s.fresh + 8) 32
    sv := 0
    last := 0
    started := true
    phase := .idle
    cw := 0
    payload := []
    rw := 0
    result := []
    sent := []
    cmdOffer := none
    inOffer := none
    transcript := []
    fresh := s.fresh + 40 }

/-! ## Host duties (R89) -/

/-- An offered word or byte is kept unchanged until its transfer. -/
def keepsOffer {α : Type} [DecidableEq α] (offered now : Option α) : Bool :=
  offered.isNone || offered == now

/-- The host keeps both offers standing from the last edge. -/
def keepsDuty (pin : PortIn) (s : State) : Bool :=
  keepsOffer s.cmdOffer pin.cmd && keepsOffer s.inOffer pin.inb

/-- What stays offered after this edge: an offer that is not transferred. -/
def noteOffers (pin : PortIn) (s : State) : State :=
  { s with
    cmdOffer := if (outputs s).cmdReady then none else pin.cmd
    inOffer := if (outputs s).inReady then none else pin.inb }

/-! ## Phase changes (R86) -/

/-- Whether the command standing in `cw` and `payload` succeeds in this state: CODE 0. -/
def succeeds (s : State) : Bool :=
  match runLatched s with
  | .next t => rwCode t.rw == 0
  | .fault _ => false
  | .refused _ => false

/-- EXEC lasts as many cycles as the parameters say for this OP and outcome (R239, R240). -/
def enterExec (s : State) : State :=
  { s with phase := .exec (s.cfg.execCycles (cwOp s.cw) (succeeds s)) }

/-- To PAYLOAD(n), or to EXEC if no byte is missing. -/
def awaitPayload (n : Nat) (s : State) : State :=
  if n = 0 then enterExec s else { s with phase := .payload n }

/-- The cmd transfer of `w`. -/
def takeCommand (w : Word) (s : State) : State :=
  awaitPayload (cwLen w) { s with cw := w, payload := [] }

/-- The in transfer of `b` in PAYLOAD(n): the k-th byte taken is `P[k-1]` (R87). -/
def takeByte (n : Nat) (b : Byte) (s : State) : State :=
  awaitPayload (n - 1) { s with payload := s.payload ++ [b] }

/-- The command is over: back to IDLE (R210), and the host has its response. -/
def complete (s : State) : State :=
  { s with
    phase := .idle
    transcript := s.transcript ++ [({ cw := s.cw, payload := s.payload }, { rw := s.rw, result := s.sent })] }

/-- To OUT(n), or to IDLE if no result byte is left. -/
def awaitResult (n : Nat) (s : State) : State :=
  if n = 0 then complete s else { s with phase := .out n }

/-- The rsp transfer. -/
def giveResponse (s : State) : State := awaitResult (rwRlen s.rw) { s with sent := [] }

/-- The out transfer in OUT(n). -/
def giveByte (n : Nat) (s : State) : State :=
  awaitResult (n - 1) { s with sent := s.sent ++ (outByte n s).toList }

/-- The phase changes of R86 at one edge. In EXEC one cycle passes. Where nothing is transferred CORE
waits, for ever if need be (R90). -/
def advance (pin : PortIn) (s : State) : State :=
  match s.phase with
  | .idle =>
    match cmdTransfer pin s with
    | some w => takeCommand w s
    | none => s
  | .payload n =>
    match inTransfer pin s with
    | some b => takeByte n b s
    | none => s
  | .exec n => { s with phase := .exec (n - 1) }
  | .resp => if rspTransfer pin s then giveResponse s else s
  | .out n => if outTransfer pin s then giveByte n s else s

/-- The edge that leaves EXEC makes the command's state writes and gives its response (R88). -/
def leaveExec (s : State) : Result :=
  match runLatched s with
  | .next t => .next { t with phase := .resp }
  | .fault f => .fault f
  | .refused r => .refused r

/-- EXEC with no cycle left is left at this same edge. -/
def settle (s : State) : Result :=
  match s.phase with
  | .exec 0 => leaveExec s
  | _ => .next s

/-- A response with a reserved code stands at the rsp channel (R206). -/
def showsReservedCode (s : State) : Bool :=
  match (outputs s).rsp with
  | some w => reservedCode (rwCode w)
  | none => false

/-- One rising edge of clk, with the inputs `pin`. -/
def edge (pin : PortIn) (s : State) : Result :=
  if pin.rst then .next (resetEdge s)
  else if s.started = false then .refused .runBeforeReset
  else if keepsDuty pin s = false then .refused .hostBrokeDuty
  else if showsReservedCode s then .refused .reservedCode
  else settle (advance pin (noteOffers pin s))

/-- A host that does nothing but keep its duties: standing offers stay, no ready is given. -/
def idleHost (s : State) : PortIn :=
  { rst := false, cmd := s.cmdOffer, inb := s.inOffer, rspReady := false, outReady := false }

/-- What the host drives at the next edge: the head of `edges`, or nothing new when it is empty. -/
def nextInputs (s : State) : PortIn := s.edges.headD (idleHost s)

/-- The next edge is in the past. -/
def dropEdge (s : State) : State := { s with edges := s.edges.tail }

/-! ## Placing a command in EXEC -/

/-- A command fully taken, in EXEC with one cycle left, the host idle: the next edge runs it. -/
def placeCommand (c : Command) (s : State) : State :=
  { s with
    started := true
    phase := .exec 1
    cw := c.cw
    payload := c.payload
    cmdOffer := none
    inOffer := none
    edges := [] }

/-! ## A host that plays a program through the ports -/

/-- The inputs of a host that only waits, ready for a response word and result bytes. -/
def readyHost : PortIn := { rst := false, cmd := none, inb := none, rspReady := true, outReady := true }

/-- One command through the ports: its word, its bytes, then `wait` edges with both ready at 1. -/
def commandEdges (wait : Nat) (c : Command) : List PortIn :=
  { readyHost with cmd := some c.cw } :: c.payload.map (fun b => { readyHost with inb := some b })
    ++ List.replicate wait readyHost

/-- A program through the ports. -/
def programEdges (wait : Nat) (cs : List Command) : List PortIn := cs.flatMap (commandEdges wait)

/-- The host will play the program `cs` at the coming edges. -/
def State.withProgram (s : State) (wait : Nat) (cs : List Command) : State :=
  { s with edges := programEdges wait cs }

end Sys2Proof.Machine
end

