-- ==== Sys2Proof/Machine/Step.lean ====
section
/-! DEFINITION. One step of the machine: one rising edge of clk (30_encoding.md R85), and how the host
of this pipeline places one command word. -/

namespace Sys2Proof.Machine

/-- One rising edge, with the inputs the host drives at it. -/
def step (s : State) : Host.Outcome State Fault Refusal := edge (nextInputs s) (dropEdge s)

/-- CORE fetches no instructions (R30): a command reaches it through its ports. This stands for those
transfers: the command word with its LEN payload bytes has been taken, and the next step runs it. -/
def State.withFetchWord (s : State) (nbits w : Nat) : State :=
  placeCommand { cw := tableCw nbits w, payload := tablePayload nbits w } s

end Sys2Proof.Machine
end

