-- ==== Sys2Proof/WellFormed.lean ====
section
/-! DEFINITION. Which terms of `Instr` are commands: LEN is an 8-bit field, so a payload has at most
255 bytes (30_encoding.md R70, R73). Every other bound is in the types (the index is a `Fin 32`). -/

namespace Sys2Proof

/-- A payload fits the LEN field (R73). -/
def payloadFits (p : List Byte) : Bool := p.length ≤ 255

/-- The well-formed instructions. -/
def Instr.wf : Instr → Bool
  | .nop => true
  | .ldkey p => payloadFits p
  | .derenc => true
  | .derdec => true
  | .wrsched _ _ => true
  | .rdsched _ => true
  | .xform p => payloadFits p
  | .subst _ => true
  | .rotl11 _ => true
  | .rdstat => true

end Sys2Proof
end

