-- ==== Sys2Proof/Machine/Assembler.lean ====
section
/-! DEFINITION. Pseudo-commands (30_encoding.md R83), the source's API as commands (00_scope.md R18) and
the assembler text of R82, as functions on characters. -/

namespace Sys2Proof.Machine

/-! ## Pseudo-commands -/

/-- The expansions of R83, in order. Not atomic as a group. -/
def expand : Pseudo → List Instr
  | .ldsched ws => (List.finRange 32).map fun i => .wrsched i ws[i]
  | .dumpsched => (List.finRange 32).map .rdsched
  | .encrypt p => [.derenc, .xform p]
  | .decrypt p => [.derdec, .xform p]

/-- "deriveEncryptionSchedule()" (R18). -/
def apiDeriveEncryption : List Instr := .derenc :: expand .dumpsched

/-- "deriveDecryptionSchedule()" (R18). -/
def apiDeriveDecryption : List Instr := .derdec :: expand .dumpsched

/-! ## Source lines -/

/-- The forms of R82 and R83. -/
inductive AsmLine where
  | instr (i : Instr)
  | pseudo (p : Pseudo)
  /-- `.word`: a raw command word and its payload, exactly LEN bytes. -/
  | word (cw : Word) (p : List Byte)
  deriving DecidableEq, Repr

/-- The commands of a line, if it has an encoding (R82). -/
def AsmLine.commands : AsmLine → Option (List Command)
  | .instr i => if i.wf then some [encode i] else none
  | .pseudo p => if (expand p).all Instr.wf then some ((expand p).map encode) else none
  | .word cw p => if p.length = cwLen cw then some [⟨cw, p⟩] else none

/-! ## Text -/

/-- A hex digit. -/
def hexDigit (c : Char) : Option Nat :=
  if '0' ≤ c ∧ c ≤ '9' then some (c.toNat - 48)
  else if 'a' ≤ c ∧ c ≤ 'f' then some (c.toNat - 87)
  else if 'A' ≤ c ∧ c ≤ 'F' then some (c.toNat - 55)
  else none

/-- The number written by digits in the given base, the most significant first. -/
def digits (base : Nat) : List Char → Nat → Option Nat
  | [], acc => some acc
  | c :: cs, acc =>
    match hexDigit c with
    | some d => if d < base then digits base cs (acc * base + d) else none
    | none => none

/-- A byte: two hex digits. -/
def parseByte (t : List Char) : Option Byte :=
  if t.length = 2 then (digits 16 t 0).map (BitVec.ofNat 8) else none

/-- A word: `0x` and 8 hex digits. -/
def parseWord : List Char → Option Word
  | '0' :: 'x' :: t => if t.length = 8 then (digits 16 t 0).map (BitVec.ofNat 32) else none
  | _ => none

/-- An index: a decimal number 0..31. -/
def parseIndex (t : List Char) : Option (Fin 32) :=
  match t, digits 10 t 0 with
  | _ :: _, some n => if h : n < 32 then some ⟨n, h⟩ else none
  | _, _ => none

/-- A byte list. -/
def parseBytes (ts : List (List Char)) : Option (List Byte) := ts.mapM parseByte

/-- A list of words with commas between them. -/
def parseWords : List (List Char) → Option (List Word)
  | [] => none
  | [t] => (parseWord t).map ([·])
  | t :: c :: ts =>
    if c = [','] then
      match parseWord t, parseWords ts with
      | some w, some ws => some (w :: ws)
      | _, _ => none
    else none

/-- A comma is a token of its own; spaces, tabs and carriage returns separate; `;` starts a comment. -/
def tokens : List Char → List Char → List (List Char)
  | [], cur => if cur = [] then [] else [cur.reverse]
  | c :: cs, cur =>
    let done := if cur = [] then [] else [cur.reverse]
    if c = ';' then done
    else if c = ' ' ∨ c = '\t' ∨ c = '\r' then done ++ tokens cs []
    else if c = ',' then done ++ [','] :: tokens cs []
    else tokens cs (c :: cur)

/-- A schedule of exactly 32 words. -/
def scheduleOf (ws : List Word) : Option Schedule :=
  if h : ws.length = 32 then some ⟨⟨ws⟩, h⟩ else none

/-- One line's tokens, but for `.word`. -/
def parseTokens (ts : List (List Char)) : Option AsmLine :=
  match ts with
  | [] => none
  | m :: args =>
    if m = "NOP".toList then if args = [] then some (.instr .nop) else none
    else if m = "LDKEY".toList then (parseBytes args).map fun p => .instr (.ldkey p)
    else if m = "DERENC".toList then if args = [] then some (.instr .derenc) else none
    else if m = "DERDEC".toList then if args = [] then some (.instr .derdec) else none
    else if m = "WRSCHED".toList then
      match args with
      | [i, [','], w] =>
        match parseIndex i, parseWord w with
        | some i, some w => some (.instr (.wrsched i w))
        | _, _ => none
      | _ => none
    else if m = "RDSCHED".toList then
      match args with
      | [i] => (parseIndex i).map fun i => .instr (.rdsched i)
      | _ => none
    else if m = "XFORM".toList then (parseBytes args).map fun p => .instr (.xform p)
    else if m = "SUBST".toList then
      match args with
      | [w] => (parseWord w).map fun w => .instr (.subst w)
      | _ => none
    else if m = "ROTL11".toList then
      match args with
      | [w] => (parseWord w).map fun w => .instr (.rotl11 w)
      | _ => none
    else if m = "RDSTAT".toList then if args = [] then some (.instr .rdstat) else none
    else if m = "LDSCHED".toList then
      (parseWords args).bind fun ws => (scheduleOf ws).map fun s => .pseudo (.ldsched s)
    else if m = "DUMPSCHED".toList then if args = [] then some (.pseudo .dumpsched) else none
    else if m = "ENCRYPT".toList then (parseBytes args).map fun p => .pseudo (.encrypt p)
    else if m = "DECRYPT".toList then (parseBytes args).map fun p => .pseudo (.decrypt p)
    else none

/-- The raw word of a `.word` line, if the line is one. -/
def rawWord : List (List Char) → Option Word
  | [m, w] => if m = ".word".toList then parseWord w else none
  | _ => none

/-- The lines of a program, as tokens. A line without a token falls away where a command may start. A
`.word` with LEN > 0 takes the very next line as its payload: DESIGN CHOICE, a blank or comment-only line
there is no payload, so such a text gives no program (log entry 12). -/
def parseLines : List (List (List Char)) → Option (List AsmLine)
  | [] => some []
  | [] :: rest => parseLines rest
  | (t :: ts) :: rest =>
    match rawWord (t :: ts) with
    | none =>
      match parseTokens (t :: ts), parseLines rest with
      | some l, some ls => some (l :: ls)
      | _, _ => none
    | some cw =>
      if cwLen cw = 0 then (parseLines rest).map fun ls => .word cw [] :: ls
      else
        match rest with
        | [] => none
        | bs :: rest' =>
          match parseBytes bs, parseLines rest' with
          | some p, some ls => some (.word cw p :: ls)
          | _, _ => none

/-- The lines of a text. -/
def textLines : List Char → List Char → List (List Char)
  | [], cur => [cur.reverse]
  | c :: cs, cur => if c = '\n' then cur.reverse :: textLines cs [] else textLines cs (c :: cur)

/-- A program text as its command list (R82, R83); none where the text has no meaning. -/
def assembleText (text : String) : Option (List Command) :=
  (parseLines ((textLines text.toList []).map (tokens · []))).bind fun ls =>
    (ls.mapM AsmLine.commands).map List.flatten

end Sys2Proof.Machine
end

