-- ==== Sys2Proof/Safety.lean ====
section
/-! DEFINITION. What claims are stated in: the legal transport states, what a host can observe, and the
link between the ports and the transaction level (30_encoding.md R91). -/

namespace Sys2Proof.Machine

/-- RW and R stand together as a response does (R78, R79): RES is 0, OPE echoes CW's OP, RLEN is the
number of result bytes, and the code is one that is produced (R206). -/
def ResponseInv (s : State) : Prop :=
  s.rw.extractLsb' 16 16 = 0 ∧ rwOpe s.rw = cwOp s.cw ∧ rwRlen s.rw = s.result.length
    ∧ (s.result.length = 0 ∨ s.result.length = 4 ∨ s.result.length = 8)
    ∧ (rwCode s.rw).toNat ≤ 5

/-- What each phase says of the transport registers (R86, R87, R88). -/
def PhaseInv (s : State) : Prop :=
  match s.phase with
  | .idle => True
  | .payload n => 0 < n ∧ s.payload.length + n = cwLen s.cw
  | .exec n => 0 < n ∧ s.payload.length = cwLen s.cw
  | .resp => s.payload.length = cwLen s.cw ∧ ResponseInv s
  | .out n => s.payload.length = cwLen s.cw ∧ ResponseInv s
      ∧ 0 < n ∧ n ≤ s.result.length ∧ s.sent = s.result.take (s.result.length - n)

/-- The invariant of every step: the transport registers agree with the phase, and LAST holds a code
that is produced (R200, R206). -/
def TransportInv (s : State) : Prop := PhaseInv s ∧ s.last.toNat ≤ 5

/-- The architectural state after a reset (R34): KEY and SCHED may hold anything (R35). -/
def AfterReset (s : State) : Prop := s.kv = false ∧ s.sv = 0 ∧ s.last = 0

/-- Two states agree on all that R35 lets a command read: KEY only where KV = 1, `SCHED[i]` only where
`SV[i]` = 1. -/
def SameReadable (s t : State) : Prop :=
  s.cfg.sbox = t.cfg.sbox ∧ s.kv = t.kv ∧ s.sv = t.sv ∧ s.last = t.last
    ∧ (s.kv = true → s.key = t.key)
    ∧ ∀ i : Fin 32, schedValid s i = true → readSched i s = readSched i t

/-- The command in progress has made its state writes: RESP and OUT (R88). -/
def committed (s : State) : Bool :=
  match s.phase with
  | .resp => true
  | .out _ => true
  | _ => false

/-- The (CW, P) pairs whose commands have run since the last reset, in order (R91). -/
def commandsRun (s : State) : List Command :=
  s.transcript.map Prod.fst
    ++ if committed s then [{ cw := s.cw, payload := s.payload }] else []

/-- Their (RW, R) pairs, in order (R91). -/
def responsesRun (s : State) : List Response :=
  s.transcript.map Prod.snd ++ if committed s then [responseOf s] else []

/-- R91: the commands CORE has run and the responses it has given are what folding `exec` over the
commands from a reset state gives, and so is the architectural state. -/
def Simulates (s : State) : Prop :=
  ∃ s0 t, AfterReset s0 ∧ s0.cfg = s.cfg
    ∧ runProgram (commandsRun s) s0 = .next (t, responsesRun s) ∧ archOf t = archOf s

/-- The next edge brings the last transfer of the command `c`, after which EXEC begins (R86): its last
payload byte in PAYLOAD(1), or its word in IDLE when LEN = 0. -/
def TakesLast (s : State) (c : Command) : Prop :=
  (s.phase = .payload 1 ∧ ∃ b, (nextInputs s).inb = some b
      ∧ c = { cw := s.cw, payload := s.payload ++ [b] })
  ∨ s.phase = .idle ∧ (nextInputs s).cmd = some c.cw ∧ cwLen c.cw = 0 ∧ c.payload = []

/-- The host keeps its duties at the next edge (R89), or resets. -/
def HostKeepsDuty (s : State) : Prop := (nextInputs s).rst = true ∨ keepsDuty (nextInputs s) s = true

end Sys2Proof.Machine
end

