-- ==== Sys2Proof/Certificates/Slice0/Obligations.lean ====
section
/-! DEFINITION. What is claimed of CORE. Each docstring names the rule of spec/ it formalises. Every
statement about a command has its next state as its conclusion: all fields not named in it are
unchanged. -/

open Sys2Proof Sys2Proof.Machine

/-! ## Encoding -/

/-- R75, R77, R82: decoding an encoded well-formed instruction gives it back, with every operand at
every value, and the encoded payload has LEN bytes. -/
def Obligations.DecodeOfEncodeIsIdentity : Prop :=
  ∀ i : Instr, i.wf = true →
    decode (encode i).cw (encode i).payload = .ok i ∧ (encode i).payload.length = cwLen (encode i).cw

/-- R75: each command has one encoding; what decodes is well-formed. -/
def Obligations.EncodeOfDecodeIsIdentity : Prop :=
  ∀ (cw : Word) (p : List Byte) (i : Instr),
    decode cw p = .ok i → encode i = { cw := cw, payload := p } ∧ i.wf = true

/-- R76: the opcode map, row by row, with the matches and masks of the table; OP 0xA to 0xF has no
row. -/
def Obligations.DecodeFollowsOpcodeMap : Prop :=
  ∀ (cw : Word) (p : List Byte), p.length = (cw.extractLsb' 16 8).toNat →
    ((∃ i, decode cw p = .ok i ∧ i.op = .nop) ↔ cw &&& 0xFFFFFFFF#32 = 0x00000000#32)
    ∧ ((∃ i, decode cw p = .ok i ∧ i.op = .ldkey) ↔ cw &&& 0xFF00FFFF#32 = 0x00000001#32)
    ∧ ((∃ i, decode cw p = .ok i ∧ i.op = .derenc) ↔ cw &&& 0xFFFFFFFF#32 = 0x00000002#32)
    ∧ ((∃ i, decode cw p = .ok i ∧ i.op = .derdec) ↔ cw &&& 0xFFFFFFFF#32 = 0x00000003#32)
    ∧ ((∃ i, decode cw p = .ok i ∧ i.op = .wrsched) ↔ cw &&& 0xFFFFE0FF#32 = 0x00040004#32)
    ∧ ((∃ i, decode cw p = .ok i ∧ i.op = .rdsched) ↔ cw &&& 0xFFFFE0FF#32 = 0x00000005#32)
    ∧ ((∃ i, decode cw p = .ok i ∧ i.op = .xform) ↔ cw &&& 0xFF00FFFF#32 = 0x00000006#32)
    ∧ ((∃ i, decode cw p = .ok i ∧ i.op = .subst) ↔ cw &&& 0xFFFFFFFF#32 = 0x00040007#32)
    ∧ ((∃ i, decode cw p = .ok i ∧ i.op = .rotl11) ↔ cw &&& 0xFFFFFFFF#32 = 0x00040008#32)
    ∧ ((∃ i, decode cw p = .ok i ∧ i.op = .rdstat) ↔ cw &&& 0xFFFFFFFF#32 = 0x00000009#32)
    ∧ (0xA ≤ (cw.extractLsb' 0 4).toNat → decode cw p = .error .illegalCommand)

/-- R74, R80, R203: the illegal command words are exactly the listed ones, whatever the payload; each
gets IllegalCommand: code 3, the OP echoed, no result bytes, and of the state only LAST changes. -/
def Obligations.IllegalWordsAreExactlyTheListedOnes : Prop :=
  ∀ (cw : Word) (p : List Byte),
    (decode cw p = .error .illegalCommand ↔
      0xA ≤ (cw.extractLsb' 0 4).toNat
      ∨ cw.extractLsb' 4 4 ≠ 0 ∨ cw.extractLsb' 13 3 ≠ 0 ∨ cw.extractLsb' 24 8 ≠ 0
      ∨ (cw.extractLsb' 8 5 ≠ 0 ∧ cw.extractLsb' 0 4 ≠ 4 ∧ cw.extractLsb' 0 4 ≠ 5)
      ∨ (cw.extractLsb' 16 8 ≠ 0
          ∧ (cw.extractLsb' 0 4 = 0 ∨ cw.extractLsb' 0 4 = 2 ∨ cw.extractLsb' 0 4 = 3
            ∨ cw.extractLsb' 0 4 = 5 ∨ cw.extractLsb' 0 4 = 9))
      ∨ (cw.extractLsb' 16 8 ≠ 4
          ∧ (cw.extractLsb' 0 4 = 4 ∨ cw.extractLsb' 0 4 = 7 ∨ cw.extractLsb' 0 4 = 8)))
    ∧ (decode cw p = .error .illegalCommand → ∀ s : State,
        transact { cw := cw, payload := p } s
          = .next { s with
              cw := cw, payload := p, last := 3
              rw := 0#24 ++ cw.extractLsb' 0 4 ++ 3#4, result := [] })

/-- R75: no two rows of the map match one word, and no two have the same OP. -/
def Obligations.OpcodeRowsDoNotOverlap : Prop :=
  (∀ cw : Word, ∀ r ∈ opTable, ∀ r' ∈ opTable,
      cw &&& r.mask = r.mtch → cw &&& r'.mask = r'.mtch → r = r')
  ∧ ∀ r ∈ opTable, ∀ r' ∈ opTable, r.mtch.extractLsb' 0 4 = r'.mtch.extractLsb' 0 4 → r = r'

/-- R70, R82: the fields of an encoded instruction's command word. -/
def Obligations.EncodeFollowsFieldLayout : Prop :=
  ∀ i : Instr, i.wf = true →
    (encode i).cw.extractLsb' 24 8 = 0
    ∧ ((encode i).cw.extractLsb' 16 8).toNat = (encode i).payload.length
    ∧ (encode i).cw.extractLsb' 13 3 = 0
    ∧ ((encode i).cw.extractLsb' 8 5).toNat = i.idx
    ∧ (encode i).cw.extractLsb' 4 4 = 0
    ∧ (encode i).cw.extractLsb' 0 4 = i.op.code

/-- 95_test_vectors.md 2.8 (R76): listed words decode to the instructions they stand for. -/
def Obligations.ListedWordsDecode : Prop :=
  decode 0x00000000#32 [] = .ok .nop
  ∧ decode 0x00200001#32 (List.replicate 32 0) = .ok (.ldkey (List.replicate 32 0))
  ∧ decode 0x00041f04#32 [0x73, 0x3d, 0x2c, 0x20] = .ok (.wrsched 31 0x733d2c20#32)
  ∧ decode 0x00001105#32 [] = .ok (.rdsched 17)
  ∧ decode 0x00080006#32 [0, 1, 2, 3, 4, 5, 6, 7] = .ok (.xform [0, 1, 2, 3, 4, 5, 6, 7])
  ∧ decode 0x00040007#32 [0x12, 0x34, 0x56, 0x78] = .ok (.subst 0x12345678#32)
  ∧ decode 0x00000009#32 [] = .ok .rdstat
  ∧ decode 0x00002004#32 [] = .error .illegalCommand

/-- R13: big-endian packing and its inverse. -/
def Obligations.BigEndianPacking : Prop :=
  (∀ (p : List Byte) (o : Nat) (h : o + 3 < p.length),
      (be32 p o).extractLsb' 24 8 = p[o] ∧ (be32 p o).extractLsb' 16 8 = p[o + 1]
      ∧ (be32 p o).extractLsb' 8 8 = p[o + 2] ∧ (be32 p o).extractLsb' 0 8 = p[o + 3])
  ∧ (∀ w : Word, bytesBE32 w
      = [w.extractLsb' 24 8, w.extractLsb' 16 8, w.extractLsb' 8 8, w.extractLsb' 0 8])
  ∧ (∀ w : Word, be32 (bytesBE32 w) 0 = w)

/-! ## The commands: result, frame and completion -/

/-- R190. -/
def Obligations.NopReportsOk : Prop :=
  (∀ s : State, exec .nop s = .next { s with last := 0, rw := 0x00000000#32, result := [] })
  ∧ (∀ (cw : Word) (p : List Byte),
      decode cw p = .ok .nop ↔ cw = 0x00000000#32 ∧ p = [])
  ∧ (∀ (cw : Word) (p : List Byte),
      cw.extractLsb' 0 4 = 0 → cw ≠ 0 → decode cw p = .error .illegalCommand)

/-- R101, R102, R103, R201: LDKEY with 32 bytes loads KEY whole and sets KV; with any other number it
writes LAST only. SCHED and SV never change. -/
def Obligations.LdkeyLoadsKey : Prop :=
  (∀ (p : List Byte) (s : State), p.length = 32 →
      exec (.ldkey p) s = .next { s with
        key := Vector.ofFn fun j => be32 p (4 * j.val), kv := true
        last := 0, rw := 0x00000010#32, result := [] })
  ∧ (∀ (p : List Byte) (s : State), p.length ≠ 32 →
      exec (.ldkey p) s = .next { s with last := 1, rw := 0x00000011#32, result := [] })
  ∧ (∀ (cw : Word) (p q : List Byte), decode cw p = .ok (.ldkey q) ↔
      cw &&& 0xFF00FFFF#32 = 0x00000001#32 ∧ p.length = (cw.extractLsb' 16 8).toNat ∧ q = p)

/-- R105, R106: DERENC. -/
def Obligations.DerencBuildsEncryptionSchedule : Prop :=
  (∀ s : State, s.kv = true →
      ∃ ws : Schedule,
        (∀ r : Fin 32, r.val < 24 → ws[r] = s.key[r.val % 8])
        ∧ (∀ (r : Nat) (_ : r < 32) (_ : 24 ≤ r), ws[r] = s.key[31 - r])
        ∧ exec .derenc s = .next { s with
            sched := ws, sv := BitVec.allOnes 32
            last := 0, rw := 0x00000020#32, result := [] })
  ∧ (∀ s : State, s.kv = false →
      exec .derenc s = .next { s with last := 4, rw := 0x00000024#32, result := [] })
  ∧ (∀ (cw : Word) (p : List Byte), decode cw p = .ok .derenc ↔ cw = 0x00000002#32 ∧ p = [])

/-- R110, R111: DERDEC. -/
def Obligations.DerdecBuildsDecryptionSchedule : Prop :=
  (∀ s : State, s.kv = true →
      ∃ ws : Schedule,
        (∀ (r : Nat) (_ : r < 8), ws[r] = s.key[r])
        ∧ (∀ r : Fin 32, 8 ≤ r.val → ws[r] = s.key[7 - r.val % 8])
        ∧ exec .derdec s = .next { s with
            sched := ws, sv := BitVec.allOnes 32
            last := 0, rw := 0x00000030#32, result := [] })
  ∧ (∀ s : State, s.kv = false →
      exec .derdec s = .next { s with last := 4, rw := 0x00000034#32, result := [] })
  ∧ (∀ (cw : Word) (p : List Byte), decode cw p = .ok .derdec ↔ cw = 0x00000003#32 ∧ p = [])

/-- R113: WRSCHED writes SCHED[i] and SV[i], no other entry and no other valid bit. -/
def Obligations.WrschedWritesOneEntry : Prop :=
  (∀ (i : Fin 32) (w : Word) (s : State),
      ∃ (ws : Schedule) (vs : BitVec 32),
        (∀ j : Fin 32, ws[j] = if j = i then w else s.sched[j])
        ∧ (∀ j : Fin 32, vs.getLsbD j.val = if j = i then true else s.sv.getLsbD j.val)
        ∧ exec (.wrsched i w) s = .next { s with
            sched := ws, sv := vs, last := 0, rw := 0x00000040#32, result := [] })
  ∧ (∀ (cw : Word) (p : List Byte) (i : Fin 32) (w : Word), decode cw p = .ok (.wrsched i w) ↔
      cw &&& 0xFFFFE0FF#32 = 0x00040004#32 ∧ p.length = 4
        ∧ i.val = (cw.extractLsb' 8 5).toNat ∧ w = be32 p 0)
  ∧ (∀ (cw : Word) (p : List Byte), cw.extractLsb' 0 4 = 4 →
      cw &&& 0xFFFFE0FF#32 ≠ 0x00040004#32 → decode cw p = .error .illegalCommand)

/-- R114: RDSCHED answers SCHED[i] where SV[i] = 1, and ScheduleUnset where SV[i] = 0. -/
def Obligations.RdschedReadsOneEntry : Prop :=
  (∀ (i : Fin 32) (s : State), s.sv.getLsbD i.val = true →
      exec (.rdsched i) s = .next { s with
        last := 0, rw := 0x00000450#32, result := bytesBE32 s.sched[i] })
  ∧ (∀ (i : Fin 32) (s : State), s.sv.getLsbD i.val = false →
      exec (.rdsched i) s = .next { s with last := 5, rw := 0x00000055#32, result := [] })
  ∧ (∀ (cw : Word) (p : List Byte) (i : Fin 32), decode cw p = .ok (.rdsched i) ↔
      cw &&& 0xFFFFE0FF#32 = 0x00000005#32 ∧ p = [] ∧ i.val = (cw.extractLsb' 8 5).toNat)

/-- R165, R202: XFORM. The length is checked first; then every SV bit must be 1. -/
def Obligations.XformTransformsBlock : Prop :=
  (∀ (p : List Byte) (s : State), p.length = 8 → (∀ i : Fin 32, s.sv.getLsbD i.val = true) →
      exec (.xform p) s = .next { s with
        last := 0, rw := 0x00000860#32, result := transform s.cfg.sbox p s.sched })
  ∧ (∀ (p : List Byte) (s : State), p.length ≠ 8 →
      exec (.xform p) s = .next { s with last := 2, rw := 0x00000062#32, result := [] })
  ∧ (∀ (p : List Byte) (s : State) (i : Fin 32), p.length = 8 → s.sv.getLsbD i.val = false →
      exec (.xform p) s = .next { s with last := 5, rw := 0x00000065#32, result := [] })
  ∧ (∀ (cw : Word) (p q : List Byte), decode cw p = .ok (.xform q) ↔
      cw &&& 0xFF00FFFF#32 = 0x00000006#32 ∧ p.length = (cw.extractLsb' 16 8).toNat ∧ q = p)

/-- R146: SUBST, for every S-box. -/
def Obligations.SubstReturnsSubstitution : Prop :=
  (∀ (w : Word) (s : State), exec (.subst w) s = .next { s with
      last := 0, rw := 0x00000470#32, result := bytesBE32 (substitute s.cfg.sbox w) })
  ∧ (∀ (cw : Word) (p : List Byte) (w : Word), decode cw p = .ok (.subst w) ↔
      cw = 0x00040007#32 ∧ p.length = 4 ∧ w = be32 p 0)
  ∧ (∀ (cw : Word) (p : List Byte), cw.extractLsb' 0 4 = 7 → cw ≠ 0x00040007#32 →
      decode cw p = .error .illegalCommand)

/-- R147, R148: ROTL11 rotates by 11 toward bit 31: output bit j is input bit (j - 11) mod 32. 32
applications give the input back, and no smaller number does for every input. -/
def Obligations.Rotl11RotatesByEleven : Prop :=
  (∀ (w : Word) (s : State),
      ∃ v : Word, (∀ j : Fin 32, v.getLsbD j.val = w.getLsbD ((j.val + 21) % 32))
        ∧ exec (.rotl11 w) s = .next { s with
            last := 0, rw := 0x00000480#32, result := bytesBE32 v })
  ∧ (∀ w : Word, rotl11^[32] w = w)
  ∧ (∀ n : Nat, 0 < n → n < 32 → ∃ w : Word, rotl11^[n] w ≠ w)
  ∧ (∀ (cw : Word) (p : List Byte) (w : Word), decode cw p = .ok (.rotl11 w) ↔
      cw = 0x00040008#32 ∧ p.length = 4 ∧ w = be32 p 0)
  ∧ (∀ (cw : Word) (p : List Byte), cw.extractLsb' 0 4 = 8 → cw ≠ 0x00040008#32 →
      decode cw p = .error .illegalCommand)

/-- R32, R33, R191: RDSTAT answers STATUS and SVMASK and writes no state. -/
def Obligations.RdstatReturnsStatus : Prop :=
  (∀ s : State,
      ∃ st vm : Word,
        st.getLsbD 0 = s.kv
        ∧ (st.getLsbD 1 = true ↔ ∀ i : Fin 32, s.sv.getLsbD i.val = true)
        ∧ st.extractLsb' 2 2 = 0 ∧ st.extractLsb' 4 4 = s.last ∧ st.extractLsb' 8 24 = 0
        ∧ (∀ i : Fin 32, vm.getLsbD i.val = s.sv.getLsbD i.val)
        ∧ exec .rdstat s = .next { s with
            rw := 0x00000890#32, result := bytesBE32 st ++ bytesBE32 vm })
  ∧ (∀ (cw : Word) (p : List Byte), decode cw p = .ok .rdstat ↔ cw = 0x00000009#32 ∧ p = [])
  ∧ (∀ (cw : Word) (p : List Byte), cw.extractLsb' 0 4 = 9 → cw ≠ 0x00000009#32 →
      decode cw p = .error .illegalCommand)

/-! ## The cipher -/

/-- R143: output nibble i is `SBOX[nib(w, i)][i]`, for every S-box. -/
def Obligations.SubstitutionIsPositionPreserving : Prop :=
  ∀ (sb : SBox) (w : Word) (i : Fin 8) (v : Nibble), v = w.extractLsb' (4 * i.val) 4 →
    (substitute sb w).extractLsb' (4 * i.val) 4 = sb[v.toNat][i]

/-- R144: with the default table `substitute` is a bijection on u32. -/
def Obligations.DefaultSubstitutionIsBijective : Prop :=
  Function.Bijective (substitute defaultSBox)

/-- R160, R162: the halves through the 32 rounds, the last without the swap. -/
def Obligations.TransformFollowsRounds : Prop :=
  ∀ (sb : SBox) (p : List Byte) (ks : Schedule),
    ∃ a b : Nat → Word,
      a 0 = be32 p 4 ∧ b 0 = be32 p 0
      ∧ (∀ (r : Nat) (_ : r < 31),
          a (r + 1) = rotl32 (substitute sb (a r + ks[r])) 11 ^^^ b r ∧ b (r + 1) = a r)
      ∧ (b 32 = rotl32 (substitute sb (a 31 + ks[31])) 11 ^^^ b 31 ∧ a 32 = a 31)
      ∧ transform sb p ks = bytesBE32 (b 32) ++ bytesBE32 (a 32)

/-- R170: the rounds may be done in groups of any size. -/
def Obligations.RoundsMayBeGrouped : Prop :=
  ∀ (sb : SBox) (ks : Schedule) (m n r : Nat) (h : Halves),
    rounds sb ks (m + n) r h = rounds sb ks n (r + m) (rounds sb ks m r h)

/-- R167: the transform with the reversed schedule undoes the transform, for every S-box, schedule and
block; so decryption undoes encryption for every key. -/
def Obligations.TransformRoundTrip : Prop :=
  (∀ (sb : SBox) (ks ks' : Schedule) (p : List Byte), p.length = 8 →
      (∀ i : Fin 32, ks'[i] = ks[31 - i.val]) →
      transform sb (transform sb p ks) ks' = p)
  ∧ (∀ (sb : SBox) (k : KeyWords) (p : List Byte), p.length = 8 →
      transform sb (transform sb p (encSched k)) (decSched k) = p)

/-- R112. -/
def Obligations.ScheduleReversal : Prop :=
  ∀ (k : KeyWords) (i : Fin 32), (decSched k)[i] = (encSched k)[31 - i.val]

/-- R107: each schedule entry is a key word, by a fixed order in which each key word stands exactly 4
times. -/
def Obligations.ScheduleEntriesAreKeyWords : Prop :=
  (∃ f : Fin 32 → Fin 8, (∀ (k : KeyWords) (r : Fin 32), (encSched k)[r] = k[f r])
      ∧ ∀ j : Fin 8, ((List.finRange 32).filter fun r => f r = j).length = 4)
  ∧ ∃ f : Fin 32 → Fin 8, (∀ (k : KeyWords) (r : Fin 32), (decSched k)[r] = k[f r])
      ∧ ∀ j : Fin 8, ((List.finRange 32).filter fun r => f r = j).length = 4

/-- R169: with the zero key both schedules are zero, DERENC and DERDEC give one XFORM result, and for
the zero block it is the stated one under the default S-box. -/
def Obligations.ZeroKeyIsNotSpecial : Prop :=
  encSched (Vector.replicate 8 0) = Vector.replicate 32 0
  ∧ decSched (Vector.replicate 8 0) = Vector.replicate 32 0
  ∧ (∀ (s : State) (p : List Byte), s.kv = true → s.key = Vector.replicate 8 0 → p.length = 8 →
      ∃ (t u : State) (r : List Byte),
        runProgram [encode .derenc, encode (.xform p)] s = .next (t, [⟨0x00000020#32, []⟩, ⟨0x00000860#32, r⟩])
        ∧ runProgram [encode .derdec, encode (.xform p)] s
            = .next (u, [⟨0x00000030#32, []⟩, ⟨0x00000860#32, r⟩]))
  ∧ transform defaultSBox (List.replicate 8 0) (Vector.replicate 32 0)
      = [0x12, 0x61, 0x0b, 0xe2, 0xa6, 0xc2, 0xfd, 0xc9]

/-! ## All commands -/

/-- R37: who writes what, for success and for failure (of a row's command, and of IllegalCommand). -/
def Obligations.WriteTable : Prop :=
  (∀ (i : Instr) (s t : State), exec i s = .next t → rwCode t.rw = 0 →
      ((∀ p, i ≠ .ldkey p) → t.key = s.key ∧ t.kv = s.kv)
      ∧ (∀ p, i = .ldkey p → (∀ j : Fin 8, t.key[j] = be32 p (4 * j.val)) ∧ t.kv = true)
      ∧ (i ≠ .derenc → i ≠ .derdec → (∀ j w, i ≠ .wrsched j w) → t.sched = s.sched ∧ t.sv = s.sv)
      ∧ (i = .derenc ∨ i = .derdec → t.sv = BitVec.allOnes 32)
      ∧ (i = .derenc → t.sched = encSched s.key)
      ∧ (i = .derdec → t.sched = decSched s.key)
      ∧ (∀ j w, i = .wrsched j w → t.sched[j] = w ∧ schedValid t j = true
          ∧ ∀ k : Fin 32, k ≠ j → t.sched[k] = s.sched[k] ∧ schedValid t k = schedValid s k)
      ∧ (i ≠ .rdstat → t.last = 0)
      ∧ (i = .rdstat → t.last = s.last))
  ∧ (∀ (c : Command) (s t : State), transact c s = .next t → rwCode t.rw ≠ 0 →
      archOf t = { archOf s with last := rwCode t.rw })

/-- R207, R209: a command that fails writes LAST and its response, without result bytes, and nothing
else. -/
def Obligations.ErrorWritesOnlyLast : Prop :=
  ∀ (c : Command) (s t : State), transact c s = .next t → rwCode t.rw ≠ 0 →
    t = { s with
      cw := c.cw, payload := c.payload
      last := rwCode t.rw, rw := 0#24 ++ c.cw.extractLsb' 0 4 ++ rwCode t.rw, result := [] }

/-- R78, R79: every command has one response word, in this form. -/
def Obligations.ResponseFormat : Prop :=
  ∀ (c : Command) (s : State), c.payload.length = (c.cw.extractLsb' 16 8).toNat →
    ∃ t : State, transact c s = .next t
      ∧ t.rw.extractLsb' 16 16 = 0
      ∧ (t.rw.extractLsb' 8 8).toNat = t.result.length
      ∧ t.rw.extractLsb' 4 4 = c.cw.extractLsb' 0 4
      ∧ (t.rw.extractLsb' 0 4).toNat ≤ 5
      ∧ t.result.length =
          (if t.rw.extractLsb' 0 4 ≠ 0 then 0
          else if c.cw.extractLsb' 0 4 = 5 ∨ c.cw.extractLsb' 0 4 = 7 ∨ c.cw.extractLsb' 0 4 = 8 then 4
          else if c.cw.extractLsb' 0 4 = 6 ∨ c.cw.extractLsb' 0 4 = 9 then 8
          else 0)

/-- R204, R205, R208: the checks in their order; the first that fails decides the code. -/
def Obligations.CodeFollowsCheckOrder : Prop :=
  ∀ (c : Command) (s : State), c.payload.length = (c.cw.extractLsb' 16 8).toNat →
    ∃ t : State, transact c s = .next t
      ∧ rwCode t.rw =
          (if ∀ r ∈ opTable, c.cw &&& r.mask ≠ r.mtch then 3
          else if c.cw.extractLsb' 0 4 = 1 ∧ c.payload.length ≠ 32 then 1
          else if c.cw.extractLsb' 0 4 = 6 ∧ c.payload.length ≠ 8 then 2
          else if (c.cw.extractLsb' 0 4 = 2 ∨ c.cw.extractLsb' 0 4 = 3) ∧ s.kv = false then 4
          else if c.cw.extractLsb' 0 4 = 5 ∧ s.sv.getLsbD (c.cw.extractLsb' 8 5).toNat = false then 5
          else if c.cw.extractLsb' 0 4 = 6 ∧ s.sv ≠ BitVec.allOnes 32 then 5
          else 0)

/-- R57: repeating a command gives the same response and leaves the same state. -/
def Obligations.RepeatingACommandChangesNothing : Prop :=
  ∀ (i : Instr) (s t : State), exec i s = .next t → exec i t = .next t

/-- R35, one command: states that agree on what may be read give one response and agree again. -/
def Obligations.CommandsReadOnlyWrittenRegisters : Prop :=
  ∀ (c : Command) (s t : State), c.wf = true → SameReadable s t →
    ∃ s' t' : State, transact c s = .next s' ∧ transact c t = .next t'
      ∧ responseOf s' = responseOf t' ∧ SameReadable s' t'

/-- R35: no program sees what KEY and SCHED hold after reset. -/
def Obligations.ResetContentsAreUnobservable : Prop :=
  ∀ (cs : List Command) (s t : State), (∀ c ∈ cs, c.wf = true) →
    AfterReset s → AfterReset t → s.cfg.sbox = t.cfg.sbox →
    ∃ (s' t' : State) (rs : List Response),
      runProgram cs s = .next (s', rs) ∧ runProgram cs t = .next (t', rs)
      ∧ s'.kv = t'.kv ∧ s'.sv = t'.sv ∧ s'.last = t'.last

/-- R38: the key is observable: LDKEY, DERENC, RDSCHED j returns key bytes 4j..4j+3. -/
def Obligations.KeyIsObservableThroughTheSchedule : Prop :=
  ∀ (p : List Byte) (s : State) (j : Nat) (h : j < 8), p.length = 32 →
    ∃ t : State,
      runProgram [encode (.ldkey p), encode .derenc, encode (.rdsched ⟨j, by omega⟩)] s
        = .next (t, [⟨0x00000010#32, []⟩, ⟨0x00000020#32, []⟩, ⟨0x00000450#32, (p.drop (4 * j)).take 4⟩])

/-- R83, R166: ENCRYPT then DECRYPT gives the block back, from every state with a key, for every
S-box. -/
def Obligations.EncryptThenDecryptIsIdentity : Prop :=
  ∀ (s : State) (p : List Byte), s.kv = true → p.length = 8 →
    ∃ (t u : State) (c : List Byte),
      runProgram ((expand (.encrypt p)).map encode) s
        = .next (t, [⟨0x00000020#32, []⟩, ⟨0x00000860#32, c⟩])
      ∧ runProgram ((expand (.decrypt c)).map encode) t
        = .next (u, [⟨0x00000030#32, []⟩, ⟨0x00000860#32, p⟩])

/-- R83, R234: LDSCHED fills SCHED and every valid bit, with no key needed. -/
def Obligations.LdschedLoadsTheWholeSchedule : Prop :=
  ∀ (ws : Schedule) (s : State),
    ∃ t : State,
      runProgram ((expand (.ldsched ws)).map encode) s
        = .next (t, List.replicate 32 ⟨0x00000040#32, []⟩)
      ∧ t.sched = ws ∧ t.sv = BitVec.allOnes 32 ∧ t.key = s.key ∧ t.kv = s.kv ∧ t.last = 0

/-- R103, R235: after LDKEY, XFORM still answers what it answered before. -/
def Obligations.StaleScheduleSurvivesLdkey : Prop :=
  ∀ (p q : List Byte) (s : State),
    ∃ t u v : State, exec (.ldkey p) s = .next t ∧ exec (.xform q) s = .next u
      ∧ exec (.xform q) t = .next v ∧ responseOf v = responseOf u

/-- R9: no parameter but SBOX changes what a command does. -/
def Obligations.OnlySboxChangesResults : Prop :=
  ∀ (c : Command) (s : State) (g : Config), c.wf = true → g.sbox = s.cfg.sbox →
    ∃ t : State, transact c s = .next t
      ∧ transact c { s with cfg := g } = .next { t with cfg := g }

/-! ## Steps: the ports and reset -/

/-- R88: at the edge that leaves EXEC, step is exec of the decoded command, with the transport's own
moves around it: the phase becomes RESP, one edge of the host is used up, and what the host offers
stays offered. -/
def Obligations.StepRunsTheDecodedCommand : Prop :=
  ∀ (s t : State) (i : Instr), s.phase = .exec 1 → s.started = true →
    (nextInputs s).rst = false → keepsDuty (nextInputs s) s = true →
    decode s.cw s.payload = .ok i → exec i s = .next t →
    step s = .next { t with
      phase := .resp, edges := s.edges.tail
      cmdOffer := (nextInputs s).cmd, inOffer := (nextInputs s).inb }

/-- R88, R203: the same edge for a command word that matches no row. -/
def Obligations.StepAnswersIllegalCommand : Prop :=
  ∀ s : State, s.phase = .exec 1 → s.started = true →
    (nextInputs s).rst = false → keepsDuty (nextInputs s) s = true →
    decode s.cw s.payload = .error .illegalCommand →
    step s = .next { s with
      last := 3, rw := 0#24 ++ s.cw.extractLsb' 0 4 ++ 3#4, result := []
      phase := .resp, edges := s.edges.tail
      cmdOffer := (nextInputs s).cmd, inOffer := (nextInputs s).inb }

/-- R84 to R86, R88: the outputs of each phase, with rsp_word = RW in RESP and out_byte = R[RLEN - n] in
OUT(n), and the phase changes. The countdown in EXEC is the model's (log entry 9). -/
def Obligations.PhasesFollowTheTransport : Prop :=
  (∀ s : State,
      (s.phase = .idle → (outputs s).cmdReady = true ∧ (outputs s).inReady = false
        ∧ (outputs s).rsp = none ∧ (outputs s).outValid = false)
      ∧ (∀ n, s.phase = .payload n → (outputs s).cmdReady = false ∧ (outputs s).inReady = true
        ∧ (outputs s).rsp = none ∧ (outputs s).outValid = false)
      ∧ (∀ n, s.phase = .exec n → (outputs s).cmdReady = false ∧ (outputs s).inReady = false
        ∧ (outputs s).rsp = none ∧ (outputs s).outValid = false)
      ∧ (s.phase = .resp → (outputs s).cmdReady = false ∧ (outputs s).inReady = false
        ∧ (outputs s).rsp = some s.rw ∧ (outputs s).outValid = false)
      ∧ (∀ n, s.phase = .out n → (outputs s).cmdReady = false ∧ (outputs s).inReady = false
        ∧ (outputs s).rsp = none ∧ (outputs s).outValid = true
        ∧ (outputs s).out = s.result[(s.rw.extractLsb' 8 8).toNat - n]?))
  ∧ (∀ s t : State, (nextInputs s).rst = false → step s = .next t →
      (s.phase = .idle →
        ((nextInputs s).cmd = none → t.phase = .idle)
        ∧ (∀ w, (nextInputs s).cmd = some w → (w.extractLsb' 16 8).toNat ≠ 0 →
            t.phase = .payload (w.extractLsb' 16 8).toNat)
        ∧ (∀ w, (nextInputs s).cmd = some w → (w.extractLsb' 16 8).toNat = 0 →
            (∃ n, 0 < n ∧ t.phase = .exec n) ∨ t.phase = .resp))
      ∧ (∀ n, s.phase = .payload n →
        ((nextInputs s).inb = none → t.phase = .payload n)
        ∧ ((nextInputs s).inb ≠ none → 1 < n → t.phase = .payload (n - 1))
        ∧ ((nextInputs s).inb ≠ none → n ≤ 1 →
            (∃ n, 0 < n ∧ t.phase = .exec n) ∨ t.phase = .resp))
      ∧ (∀ n, s.phase = .exec n →
        (1 < n → t.phase = .exec (n - 1)) ∧ (n ≤ 1 → t.phase = .resp))
      ∧ (s.phase = .resp →
        ((nextInputs s).rspReady = false → t.phase = .resp)
        ∧ ((nextInputs s).rspReady = true →
            t.phase = if (s.rw.extractLsb' 8 8).toNat = 0 then .idle
              else .out (s.rw.extractLsb' 8 8).toNat))
      ∧ (∀ n, s.phase = .out n →
        ((nextInputs s).outReady = false → t.phase = .out n)
        ∧ ((nextInputs s).outReady = true → t.phase = if n ≤ 1 then .idle else .out (n - 1))))

/-- R87: payload bytes are taken only in PAYLOAD, in order; bytes offered in another phase stay
offered; result bytes are sent R[0] first. -/
def Obligations.PayloadBytesAreTakenOnlyInPayload : Prop :=
  ∀ s t : State, (nextInputs s).rst = false → step s = .next t →
    (∀ n b, s.phase = .payload n → (nextInputs s).inb = some b →
        t.payload = s.payload ++ [b] ∧ t.inOffer = none)
    ∧ (∀ n, s.phase = .payload n → (nextInputs s).inb = none → t.payload = s.payload)
    ∧ ((∀ n, s.phase ≠ .payload n) →
        t.inOffer = (nextInputs s).inb ∧ (t.payload = s.payload ∨ s.phase = .idle ∧ t.payload = []))
    ∧ (∀ n b, s.phase = .out n → (nextInputs s).outReady = true →
        s.result[(s.rw.extractLsb' 8 8).toNat - n]? = some b → t.sent = s.sent ++ [b])

/-- R90: with no byte offered in PAYLOAD, or no ready in RESP or OUT, CORE waits: only the host's side
moves on. -/
def Obligations.CoreWaitsWithoutTransfers : Prop :=
  ∀ s : State, s.started = true → (nextInputs s).rst = false →
    keepsDuty (nextInputs s) s = true → (s.rw.extractLsb' 0 4).toNat ≤ 5 →
    ((∃ n, s.phase = .payload n) ∧ (nextInputs s).inb = none
      ∨ s.phase = .resp ∧ (nextInputs s).rspReady = false
      ∨ (∃ n, s.phase = .out n) ∧ (nextInputs s).outReady = false) →
    step s = .next { s with
      edges := s.edges.tail, cmdOffer := (nextInputs s).cmd, inOffer := (nextInputs s).inb }

/-- R89: an offer that was not transferred is remembered, and dropping or changing it is refused. -/
def Obligations.BrokenOffersAreRefused : Prop :=
  (∀ s : State, s.started = true → (nextInputs s).rst = false →
      (∃ w, s.cmdOffer = some w ∧ (nextInputs s).cmd ≠ some w)
        ∨ (∃ b, s.inOffer = some b ∧ (nextInputs s).inb ≠ some b) →
      step s = .refused .hostBrokeDuty)
  ∧ (∀ s t : State, (nextInputs s).rst = false → step s = .next t →
      t.cmdOffer = (if s.phase = .idle then none else (nextInputs s).cmd)
      ∧ ((∃ n, s.phase = .payload n) → t.inOffer = none)
      ∧ ((∀ n, s.phase ≠ .payload n) → t.inOffer = (nextInputs s).inb))

/-- R230, R232, R233: an edge with rst = 1, in any phase of any state, gives the reset state: no
response, no payload kept, IDLE, ready for a command. -/
def Obligations.ResetEdgeGivesTheResetState : Prop :=
  ∀ s : State, (nextInputs s).rst = true →
    ∃ t : State, step s = .next t
      ∧ t.kv = false ∧ (∀ i : Fin 32, t.sv.getLsbD i.val = false) ∧ t.last = 0
      ∧ t.phase = .idle ∧ (outputs t).cmdReady = true ∧ t.payload = [] ∧ t.transcript = []
      ∧ t.started = true ∧ t.cfg = s.cfg

/-- R34: the state elements with a defined reset value. -/
def Obligations.ResetStateValues : Prop :=
  State.reset.kv = false ∧ (∀ i : Fin 32, State.reset.sv.getLsbD i.val = false)
  ∧ State.reset.last = 0

/-- R231: a run that does not begin with a reset is refused. -/
def Obligations.RunBeforeResetIsRefused : Prop :=
  ∀ s : State, s.started = false → (nextInputs s).rst = false → step s = .refused .runBeforeReset

/-- The invariant of R86, R88, R200 holds at reset. -/
def Obligations.TransportInvariantAtReset : Prop := TransportInv State.reset

/-- R56, R86, R88, R200: every step keeps the transport registers in agreement with the phase, and
LAST a code that is produced. -/
def Obligations.EveryStepKeepsTheTransportInvariant : Prop :=
  ∀ s t : State, TransportInv s → step s = .next t → TransportInv t

/-- R89, R90: a host that keeps its duties is never refused. -/
def Obligations.DutifulHostIsNeverRefused : Prop :=
  ∀ s : State, TransportInv s → s.started = true → HostKeepsDuty s → ∃ t : State, step s = .next t

/-- R91 holds at reset. -/
def Obligations.SimulationAtReset : Prop := Simulates State.reset

/-- R91, step by step: what the ports have shown is what folding exec over the commands gives. -/
def Obligations.EveryStepKeepsTheSimulation : Prop :=
  ∀ s t : State, TransportInv s → Simulates s → step s = .next t → Simulates t

/-- R91: every run of the ports from reset, with any parameters and any host that keeps its duties,
gives what folding exec over the commands taken gives. -/
def Obligations.PortRunsFoldTheCommands : Prop :=
  ∀ (g : Config) (es : List PortIn) (n : Nat) (s : State),
    Host.Core.run Sys2Proof.core n ({ State.reset with cfg := g, edges := es } : State) = .next s →
    TransportInv s ∧ Simulates s

/-- R27: no step changes a parameter. -/
def Obligations.ParametersNeverChange : Prop :=
  ∀ s t : State, step s = .next t → t.cfg = s.cfg

/-- R22, R24: nothing but reset clears KV or an SV bit. -/
def Obligations.OnlyResetClearsValidBits : Prop :=
  ∀ s t : State, (nextInputs s).rst = false → step s = .next t →
    (s.kv = true → t.kv = true)
    ∧ ∀ i : Fin 32, s.sv.getLsbD i.val = true → t.sv.getLsbD i.val = true

/-- R240: how long EXEC will last depends only on OP and on success: two commands whose last transfer is
made, of a payload byte or of the command word when LEN = 0, go on alike if they have the same OP and
outcome. KEY, SCHED and the payload may differ. -/
def Obligations.ExecTimeIsIndependentOfData : Prop :=
  ∀ (s s' t t' : State) (c c' : Command), s.cfg = s'.cfg →
    (nextInputs s).rst = false → (nextInputs s').rst = false →
    TakesLast s c → TakesLast s' c' →
    c.cw.extractLsb' 0 4 = c'.cw.extractLsb' 0 4 → succeeds (latch c s) = succeeds (latch c' s') →
    step s = .next t → step s' = .next t' → t.phase = t'.phase

/-- R85, R88: the cmd transfer takes the word the host offers, and at no other edge does the command word
change; RW and the result bytes stay as they are through RESP and OUT. -/
def Obligations.TransfersTakeTheOfferedWord : Prop :=
  ∀ s t : State, (nextInputs s).rst = false → step s = .next t →
    (∀ w, s.phase = .idle → (nextInputs s).cmd = some w → t.cw = w)
    ∧ (s.phase ≠ .idle ∨ (nextInputs s).cmd = none → t.cw = s.cw)
    ∧ (s.phase = .resp ∨ (∃ n, s.phase = .out n) → t.rw = s.rw ∧ t.result = s.result)
end

