-- ==== Sys2Proof/Laws/Decode.lean ====
section
/-! SUPPORT. Small lemmas of the decoder: what a successful lookup says of CW, and packing. -/

namespace Sys2Proof

/-- A found row is a row of the table that CW matches. -/
theorem lookup_some {cw : Word} {op : Op} (h : lookup cw = some op) :
    ∃ r ∈ opTable, r.op = op ∧ cw &&& r.mask = r.mtch := by
  obtain ⟨r, hr, rfl⟩ := Option.map_eq_some_iff.mp h
  refine ⟨r, List.mem_of_find?_eq_some hr, rfl, ?_⟩
  simpa [Row.matches] using List.find?_some hr

/-- No row is found exactly when CW matches no row (R75). -/
theorem lookup_none_iff (cw : Word) :
    lookup cw = none ↔ ∀ r ∈ opTable, ¬ cw &&& r.mask = r.mtch := by
  simp [lookup, Row.matches]

/-- `bytesBE32` gives four bytes (R13). -/
@[simp] theorem bytesBE32_length (w : Word) : (bytesBE32 w).length = 4 := rfl

@[simp] theorem op_assemble (op : Op) (cw : Word) (p : List Byte) : (assemble op cw p).op = op := by
  cases op <;> rfl

end Sys2Proof
end

