-- ==== Sys2Proof/Laws/State.lean ====
section
/-! SUPPORT. The field lemmas of every named update of the state, and the arch view of each. -/

namespace Sys2Proof.Machine

/-! ## `writeKey` -/

@[simp] theorem writeKey_cfg (k : KeyWords) (s : State) : (writeKey k s).cfg = s.cfg := rfl
@[simp] theorem writeKey_key (k : KeyWords) (s : State) : (writeKey k s).key = k := rfl
@[simp] theorem writeKey_kv (k : KeyWords) (s : State) : (writeKey k s).kv = s.kv := rfl
@[simp] theorem writeKey_sched (k : KeyWords) (s : State) : (writeKey k s).sched = s.sched := rfl
@[simp] theorem writeKey_sv (k : KeyWords) (s : State) : (writeKey k s).sv = s.sv := rfl
@[simp] theorem writeKey_last (k : KeyWords) (s : State) : (writeKey k s).last = s.last := rfl
@[simp] theorem writeKey_started (k : KeyWords) (s : State) : (writeKey k s).started = s.started := rfl
@[simp] theorem writeKey_phase (k : KeyWords) (s : State) : (writeKey k s).phase = s.phase := rfl
@[simp] theorem writeKey_cw (k : KeyWords) (s : State) : (writeKey k s).cw = s.cw := rfl
@[simp] theorem writeKey_payload (k : KeyWords) (s : State) : (writeKey k s).payload = s.payload := rfl
@[simp] theorem writeKey_rw (k : KeyWords) (s : State) : (writeKey k s).rw = s.rw := rfl
@[simp] theorem writeKey_result (k : KeyWords) (s : State) : (writeKey k s).result = s.result := rfl
@[simp] theorem writeKey_sent (k : KeyWords) (s : State) : (writeKey k s).sent = s.sent := rfl
@[simp] theorem writeKey_cmdOffer (k : KeyWords) (s : State) : (writeKey k s).cmdOffer = s.cmdOffer := rfl
@[simp] theorem writeKey_inOffer (k : KeyWords) (s : State) : (writeKey k s).inOffer = s.inOffer := rfl
@[simp] theorem writeKey_edges (k : KeyWords) (s : State) : (writeKey k s).edges = s.edges := rfl
@[simp] theorem writeKey_transcript (k : KeyWords) (s : State) : (writeKey k s).transcript = s.transcript := rfl
@[simp] theorem writeKey_fresh (k : KeyWords) (s : State) : (writeKey k s).fresh = s.fresh := rfl

/-! ## `setKeyValid` -/

@[simp] theorem setKeyValid_cfg (s : State) : (setKeyValid s).cfg = s.cfg := rfl
@[simp] theorem setKeyValid_key (s : State) : (setKeyValid s).key = s.key := rfl
@[simp] theorem setKeyValid_kv (s : State) : (setKeyValid s).kv = true := rfl
@[simp] theorem setKeyValid_sched (s : State) : (setKeyValid s).sched = s.sched := rfl
@[simp] theorem setKeyValid_sv (s : State) : (setKeyValid s).sv = s.sv := rfl
@[simp] theorem setKeyValid_last (s : State) : (setKeyValid s).last = s.last := rfl
@[simp] theorem setKeyValid_started (s : State) : (setKeyValid s).started = s.started := rfl
@[simp] theorem setKeyValid_phase (s : State) : (setKeyValid s).phase = s.phase := rfl
@[simp] theorem setKeyValid_cw (s : State) : (setKeyValid s).cw = s.cw := rfl
@[simp] theorem setKeyValid_payload (s : State) : (setKeyValid s).payload = s.payload := rfl
@[simp] theorem setKeyValid_rw (s : State) : (setKeyValid s).rw = s.rw := rfl
@[simp] theorem setKeyValid_result (s : State) : (setKeyValid s).result = s.result := rfl
@[simp] theorem setKeyValid_sent (s : State) : (setKeyValid s).sent = s.sent := rfl
@[simp] theorem setKeyValid_cmdOffer (s : State) : (setKeyValid s).cmdOffer = s.cmdOffer := rfl
@[simp] theorem setKeyValid_inOffer (s : State) : (setKeyValid s).inOffer = s.inOffer := rfl
@[simp] theorem setKeyValid_edges (s : State) : (setKeyValid s).edges = s.edges := rfl
@[simp] theorem setKeyValid_transcript (s : State) : (setKeyValid s).transcript = s.transcript := rfl
@[simp] theorem setKeyValid_fresh (s : State) : (setKeyValid s).fresh = s.fresh := rfl

/-! ## `writeSched` -/

@[simp] theorem writeSched_cfg (i : Fin 32) (w : Word) (s : State) : (writeSched i w s).cfg = s.cfg := rfl
@[simp] theorem writeSched_key (i : Fin 32) (w : Word) (s : State) : (writeSched i w s).key = s.key := rfl
@[simp] theorem writeSched_kv (i : Fin 32) (w : Word) (s : State) : (writeSched i w s).kv = s.kv := rfl
@[simp] theorem writeSched_sched (i : Fin 32) (w : Word) (s : State) : (writeSched i w s).sched = s.sched.set i w := rfl
@[simp] theorem writeSched_sv (i : Fin 32) (w : Word) (s : State) : (writeSched i w s).sv = markValid i s.sv := rfl
@[simp] theorem writeSched_last (i : Fin 32) (w : Word) (s : State) : (writeSched i w s).last = s.last := rfl
@[simp] theorem writeSched_started (i : Fin 32) (w : Word) (s : State) : (writeSched i w s).started = s.started := rfl
@[simp] theorem writeSched_phase (i : Fin 32) (w : Word) (s : State) : (writeSched i w s).phase = s.phase := rfl
@[simp] theorem writeSched_cw (i : Fin 32) (w : Word) (s : State) : (writeSched i w s).cw = s.cw := rfl
@[simp] theorem writeSched_payload (i : Fin 32) (w : Word) (s : State) : (writeSched i w s).payload = s.payload := rfl
@[simp] theorem writeSched_rw (i : Fin 32) (w : Word) (s : State) : (writeSched i w s).rw = s.rw := rfl
@[simp] theorem writeSched_result (i : Fin 32) (w : Word) (s : State) : (writeSched i w s).result = s.result := rfl
@[simp] theorem writeSched_sent (i : Fin 32) (w : Word) (s : State) : (writeSched i w s).sent = s.sent := rfl
@[simp] theorem writeSched_cmdOffer (i : Fin 32) (w : Word) (s : State) : (writeSched i w s).cmdOffer = s.cmdOffer := rfl
@[simp] theorem writeSched_inOffer (i : Fin 32) (w : Word) (s : State) : (writeSched i w s).inOffer = s.inOffer := rfl
@[simp] theorem writeSched_edges (i : Fin 32) (w : Word) (s : State) : (writeSched i w s).edges = s.edges := rfl
@[simp] theorem writeSched_transcript (i : Fin 32) (w : Word) (s : State) : (writeSched i w s).transcript = s.transcript := rfl
@[simp] theorem writeSched_fresh (i : Fin 32) (w : Word) (s : State) : (writeSched i w s).fresh = s.fresh := rfl

/-! ## `writeSchedAll` -/

@[simp] theorem writeSchedAll_cfg (ws : Schedule) (s : State) : (writeSchedAll ws s).cfg = s.cfg := rfl
@[simp] theorem writeSchedAll_key (ws : Schedule) (s : State) : (writeSchedAll ws s).key = s.key := rfl
@[simp] theorem writeSchedAll_kv (ws : Schedule) (s : State) : (writeSchedAll ws s).kv = s.kv := rfl
@[simp] theorem writeSchedAll_sched (ws : Schedule) (s : State) : (writeSchedAll ws s).sched = ws := rfl
@[simp] theorem writeSchedAll_sv (ws : Schedule) (s : State) : (writeSchedAll ws s).sv = BitVec.allOnes 32 := rfl
@[simp] theorem writeSchedAll_last (ws : Schedule) (s : State) : (writeSchedAll ws s).last = s.last := rfl
@[simp] theorem writeSchedAll_started (ws : Schedule) (s : State) : (writeSchedAll ws s).started = s.started := rfl
@[simp] theorem writeSchedAll_phase (ws : Schedule) (s : State) : (writeSchedAll ws s).phase = s.phase := rfl
@[simp] theorem writeSchedAll_cw (ws : Schedule) (s : State) : (writeSchedAll ws s).cw = s.cw := rfl
@[simp] theorem writeSchedAll_payload (ws : Schedule) (s : State) : (writeSchedAll ws s).payload = s.payload := rfl
@[simp] theorem writeSchedAll_rw (ws : Schedule) (s : State) : (writeSchedAll ws s).rw = s.rw := rfl
@[simp] theorem writeSchedAll_result (ws : Schedule) (s : State) : (writeSchedAll ws s).result = s.result := rfl
@[simp] theorem writeSchedAll_sent (ws : Schedule) (s : State) : (writeSchedAll ws s).sent = s.sent := rfl
@[simp] theorem writeSchedAll_cmdOffer (ws : Schedule) (s : State) : (writeSchedAll ws s).cmdOffer = s.cmdOffer := rfl
@[simp] theorem writeSchedAll_inOffer (ws : Schedule) (s : State) : (writeSchedAll ws s).inOffer = s.inOffer := rfl
@[simp] theorem writeSchedAll_edges (ws : Schedule) (s : State) : (writeSchedAll ws s).edges = s.edges := rfl
@[simp] theorem writeSchedAll_transcript (ws : Schedule) (s : State) : (writeSchedAll ws s).transcript = s.transcript := rfl
@[simp] theorem writeSchedAll_fresh (ws : Schedule) (s : State) : (writeSchedAll ws s).fresh = s.fresh := rfl

/-! ## `setLast` -/

@[simp] theorem setLast_cfg (c : Code) (s : State) : (setLast c s).cfg = s.cfg := rfl
@[simp] theorem setLast_key (c : Code) (s : State) : (setLast c s).key = s.key := rfl
@[simp] theorem setLast_kv (c : Code) (s : State) : (setLast c s).kv = s.kv := rfl
@[simp] theorem setLast_sched (c : Code) (s : State) : (setLast c s).sched = s.sched := rfl
@[simp] theorem setLast_sv (c : Code) (s : State) : (setLast c s).sv = s.sv := rfl
@[simp] theorem setLast_last (c : Code) (s : State) : (setLast c s).last = codeBits c := rfl
@[simp] theorem setLast_started (c : Code) (s : State) : (setLast c s).started = s.started := rfl
@[simp] theorem setLast_phase (c : Code) (s : State) : (setLast c s).phase = s.phase := rfl
@[simp] theorem setLast_cw (c : Code) (s : State) : (setLast c s).cw = s.cw := rfl
@[simp] theorem setLast_payload (c : Code) (s : State) : (setLast c s).payload = s.payload := rfl
@[simp] theorem setLast_rw (c : Code) (s : State) : (setLast c s).rw = s.rw := rfl
@[simp] theorem setLast_result (c : Code) (s : State) : (setLast c s).result = s.result := rfl
@[simp] theorem setLast_sent (c : Code) (s : State) : (setLast c s).sent = s.sent := rfl
@[simp] theorem setLast_cmdOffer (c : Code) (s : State) : (setLast c s).cmdOffer = s.cmdOffer := rfl
@[simp] theorem setLast_inOffer (c : Code) (s : State) : (setLast c s).inOffer = s.inOffer := rfl
@[simp] theorem setLast_edges (c : Code) (s : State) : (setLast c s).edges = s.edges := rfl
@[simp] theorem setLast_transcript (c : Code) (s : State) : (setLast c s).transcript = s.transcript := rfl
@[simp] theorem setLast_fresh (c : Code) (s : State) : (setLast c s).fresh = s.fresh := rfl

/-! ## `respond` -/

@[simp] theorem respond_cfg (c : Code) (op : Nibble) (r : List Byte) (s : State) : (respond c op r s).cfg = s.cfg := rfl
@[simp] theorem respond_key (c : Code) (op : Nibble) (r : List Byte) (s : State) : (respond c op r s).key = s.key := rfl
@[simp] theorem respond_kv (c : Code) (op : Nibble) (r : List Byte) (s : State) : (respond c op r s).kv = s.kv := rfl
@[simp] theorem respond_sched (c : Code) (op : Nibble) (r : List Byte) (s : State) : (respond c op r s).sched = s.sched := rfl
@[simp] theorem respond_sv (c : Code) (op : Nibble) (r : List Byte) (s : State) : (respond c op r s).sv = s.sv := rfl
@[simp] theorem respond_last (c : Code) (op : Nibble) (r : List Byte) (s : State) : (respond c op r s).last = s.last := rfl
@[simp] theorem respond_started (c : Code) (op : Nibble) (r : List Byte) (s : State) : (respond c op r s).started = s.started := rfl
@[simp] theorem respond_phase (c : Code) (op : Nibble) (r : List Byte) (s : State) : (respond c op r s).phase = s.phase := rfl
@[simp] theorem respond_cw (c : Code) (op : Nibble) (r : List Byte) (s : State) : (respond c op r s).cw = s.cw := rfl
@[simp] theorem respond_payload (c : Code) (op : Nibble) (r : List Byte) (s : State) : (respond c op r s).payload = s.payload := rfl
@[simp] theorem respond_rw (c : Code) (op : Nibble) (r : List Byte) (s : State) : (respond c op r s).rw = responseWord c op r.length := rfl
@[simp] theorem respond_result (c : Code) (op : Nibble) (r : List Byte) (s : State) : (respond c op r s).result = r := rfl
@[simp] theorem respond_sent (c : Code) (op : Nibble) (r : List Byte) (s : State) : (respond c op r s).sent = s.sent := rfl
@[simp] theorem respond_cmdOffer (c : Code) (op : Nibble) (r : List Byte) (s : State) : (respond c op r s).cmdOffer = s.cmdOffer := rfl
@[simp] theorem respond_inOffer (c : Code) (op : Nibble) (r : List Byte) (s : State) : (respond c op r s).inOffer = s.inOffer := rfl
@[simp] theorem respond_edges (c : Code) (op : Nibble) (r : List Byte) (s : State) : (respond c op r s).edges = s.edges := rfl
@[simp] theorem respond_transcript (c : Code) (op : Nibble) (r : List Byte) (s : State) : (respond c op r s).transcript = s.transcript := rfl
@[simp] theorem respond_fresh (c : Code) (op : Nibble) (r : List Byte) (s : State) : (respond c op r s).fresh = s.fresh := rfl

/-! ## `latch` -/

@[simp] theorem latch_cfg (c : Command) (s : State) : (latch c s).cfg = s.cfg := rfl
@[simp] theorem latch_key (c : Command) (s : State) : (latch c s).key = s.key := rfl
@[simp] theorem latch_kv (c : Command) (s : State) : (latch c s).kv = s.kv := rfl
@[simp] theorem latch_sched (c : Command) (s : State) : (latch c s).sched = s.sched := rfl
@[simp] theorem latch_sv (c : Command) (s : State) : (latch c s).sv = s.sv := rfl
@[simp] theorem latch_last (c : Command) (s : State) : (latch c s).last = s.last := rfl
@[simp] theorem latch_started (c : Command) (s : State) : (latch c s).started = s.started := rfl
@[simp] theorem latch_phase (c : Command) (s : State) : (latch c s).phase = s.phase := rfl
@[simp] theorem latch_cw (c : Command) (s : State) : (latch c s).cw = c.cw := rfl
@[simp] theorem latch_payload (c : Command) (s : State) : (latch c s).payload = c.payload := rfl
@[simp] theorem latch_rw (c : Command) (s : State) : (latch c s).rw = s.rw := rfl
@[simp] theorem latch_result (c : Command) (s : State) : (latch c s).result = s.result := rfl
@[simp] theorem latch_sent (c : Command) (s : State) : (latch c s).sent = s.sent := rfl
@[simp] theorem latch_cmdOffer (c : Command) (s : State) : (latch c s).cmdOffer = s.cmdOffer := rfl
@[simp] theorem latch_inOffer (c : Command) (s : State) : (latch c s).inOffer = s.inOffer := rfl
@[simp] theorem latch_edges (c : Command) (s : State) : (latch c s).edges = s.edges := rfl
@[simp] theorem latch_transcript (c : Command) (s : State) : (latch c s).transcript = s.transcript := rfl
@[simp] theorem latch_fresh (c : Command) (s : State) : (latch c s).fresh = s.fresh := rfl

/-! ## `dropEdge` -/

@[simp] theorem dropEdge_cfg (s : State) : (dropEdge s).cfg = s.cfg := rfl
@[simp] theorem dropEdge_key (s : State) : (dropEdge s).key = s.key := rfl
@[simp] theorem dropEdge_kv (s : State) : (dropEdge s).kv = s.kv := rfl
@[simp] theorem dropEdge_sched (s : State) : (dropEdge s).sched = s.sched := rfl
@[simp] theorem dropEdge_sv (s : State) : (dropEdge s).sv = s.sv := rfl
@[simp] theorem dropEdge_last (s : State) : (dropEdge s).last = s.last := rfl
@[simp] theorem dropEdge_started (s : State) : (dropEdge s).started = s.started := rfl
@[simp] theorem dropEdge_phase (s : State) : (dropEdge s).phase = s.phase := rfl
@[simp] theorem dropEdge_cw (s : State) : (dropEdge s).cw = s.cw := rfl
@[simp] theorem dropEdge_payload (s : State) : (dropEdge s).payload = s.payload := rfl
@[simp] theorem dropEdge_rw (s : State) : (dropEdge s).rw = s.rw := rfl
@[simp] theorem dropEdge_result (s : State) : (dropEdge s).result = s.result := rfl
@[simp] theorem dropEdge_sent (s : State) : (dropEdge s).sent = s.sent := rfl
@[simp] theorem dropEdge_cmdOffer (s : State) : (dropEdge s).cmdOffer = s.cmdOffer := rfl
@[simp] theorem dropEdge_inOffer (s : State) : (dropEdge s).inOffer = s.inOffer := rfl
@[simp] theorem dropEdge_edges (s : State) : (dropEdge s).edges = s.edges.tail := rfl
@[simp] theorem dropEdge_transcript (s : State) : (dropEdge s).transcript = s.transcript := rfl
@[simp] theorem dropEdge_fresh (s : State) : (dropEdge s).fresh = s.fresh := rfl

/-! ## `noteOffers` -/

@[simp] theorem noteOffers_cfg (pin : PortIn) (s : State) : (noteOffers pin s).cfg = s.cfg := rfl
@[simp] theorem noteOffers_key (pin : PortIn) (s : State) : (noteOffers pin s).key = s.key := rfl
@[simp] theorem noteOffers_kv (pin : PortIn) (s : State) : (noteOffers pin s).kv = s.kv := rfl
@[simp] theorem noteOffers_sched (pin : PortIn) (s : State) : (noteOffers pin s).sched = s.sched := rfl
@[simp] theorem noteOffers_sv (pin : PortIn) (s : State) : (noteOffers pin s).sv = s.sv := rfl
@[simp] theorem noteOffers_last (pin : PortIn) (s : State) : (noteOffers pin s).last = s.last := rfl
@[simp] theorem noteOffers_started (pin : PortIn) (s : State) : (noteOffers pin s).started = s.started := rfl
@[simp] theorem noteOffers_phase (pin : PortIn) (s : State) : (noteOffers pin s).phase = s.phase := rfl
@[simp] theorem noteOffers_cw (pin : PortIn) (s : State) : (noteOffers pin s).cw = s.cw := rfl
@[simp] theorem noteOffers_payload (pin : PortIn) (s : State) : (noteOffers pin s).payload = s.payload := rfl
@[simp] theorem noteOffers_rw (pin : PortIn) (s : State) : (noteOffers pin s).rw = s.rw := rfl
@[simp] theorem noteOffers_result (pin : PortIn) (s : State) : (noteOffers pin s).result = s.result := rfl
@[simp] theorem noteOffers_sent (pin : PortIn) (s : State) : (noteOffers pin s).sent = s.sent := rfl
@[simp] theorem noteOffers_cmdOffer (pin : PortIn) (s : State) : (noteOffers pin s).cmdOffer = (if (outputs s).cmdReady then none else pin.cmd) := rfl
@[simp] theorem noteOffers_inOffer (pin : PortIn) (s : State) : (noteOffers pin s).inOffer = (if (outputs s).inReady then none else pin.inb) := rfl
@[simp] theorem noteOffers_edges (pin : PortIn) (s : State) : (noteOffers pin s).edges = s.edges := rfl
@[simp] theorem noteOffers_transcript (pin : PortIn) (s : State) : (noteOffers pin s).transcript = s.transcript := rfl
@[simp] theorem noteOffers_fresh (pin : PortIn) (s : State) : (noteOffers pin s).fresh = s.fresh := rfl

/-! ## `enterExec` -/

@[simp] theorem enterExec_cfg (s : State) : (enterExec s).cfg = s.cfg := rfl
@[simp] theorem enterExec_key (s : State) : (enterExec s).key = s.key := rfl
@[simp] theorem enterExec_kv (s : State) : (enterExec s).kv = s.kv := rfl
@[simp] theorem enterExec_sched (s : State) : (enterExec s).sched = s.sched := rfl
@[simp] theorem enterExec_sv (s : State) : (enterExec s).sv = s.sv := rfl
@[simp] theorem enterExec_last (s : State) : (enterExec s).last = s.last := rfl
@[simp] theorem enterExec_started (s : State) : (enterExec s).started = s.started := rfl
@[simp] theorem enterExec_phase (s : State) : (enterExec s).phase = .exec (s.cfg.execCycles (cwOp s.cw) (succeeds s)) := rfl
@[simp] theorem enterExec_cw (s : State) : (enterExec s).cw = s.cw := rfl
@[simp] theorem enterExec_payload (s : State) : (enterExec s).payload = s.payload := rfl
@[simp] theorem enterExec_rw (s : State) : (enterExec s).rw = s.rw := rfl
@[simp] theorem enterExec_result (s : State) : (enterExec s).result = s.result := rfl
@[simp] theorem enterExec_sent (s : State) : (enterExec s).sent = s.sent := rfl
@[simp] theorem enterExec_cmdOffer (s : State) : (enterExec s).cmdOffer = s.cmdOffer := rfl
@[simp] theorem enterExec_inOffer (s : State) : (enterExec s).inOffer = s.inOffer := rfl
@[simp] theorem enterExec_edges (s : State) : (enterExec s).edges = s.edges := rfl
@[simp] theorem enterExec_transcript (s : State) : (enterExec s).transcript = s.transcript := rfl
@[simp] theorem enterExec_fresh (s : State) : (enterExec s).fresh = s.fresh := rfl

/-! ## `complete` -/

@[simp] theorem complete_cfg (s : State) : (complete s).cfg = s.cfg := rfl
@[simp] theorem complete_key (s : State) : (complete s).key = s.key := rfl
@[simp] theorem complete_kv (s : State) : (complete s).kv = s.kv := rfl
@[simp] theorem complete_sched (s : State) : (complete s).sched = s.sched := rfl
@[simp] theorem complete_sv (s : State) : (complete s).sv = s.sv := rfl
@[simp] theorem complete_last (s : State) : (complete s).last = s.last := rfl
@[simp] theorem complete_started (s : State) : (complete s).started = s.started := rfl
@[simp] theorem complete_phase (s : State) : (complete s).phase = .idle := rfl
@[simp] theorem complete_cw (s : State) : (complete s).cw = s.cw := rfl
@[simp] theorem complete_payload (s : State) : (complete s).payload = s.payload := rfl
@[simp] theorem complete_rw (s : State) : (complete s).rw = s.rw := rfl
@[simp] theorem complete_result (s : State) : (complete s).result = s.result := rfl
@[simp] theorem complete_sent (s : State) : (complete s).sent = s.sent := rfl
@[simp] theorem complete_cmdOffer (s : State) : (complete s).cmdOffer = s.cmdOffer := rfl
@[simp] theorem complete_inOffer (s : State) : (complete s).inOffer = s.inOffer := rfl
@[simp] theorem complete_edges (s : State) : (complete s).edges = s.edges := rfl
@[simp] theorem complete_transcript (s : State) : (complete s).transcript = s.transcript ++ [({ cw := s.cw, payload := s.payload }, { rw := s.rw, result := s.sent })] := rfl
@[simp] theorem complete_fresh (s : State) : (complete s).fresh = s.fresh := rfl

/-! ## `resetEdge` -/

@[simp] theorem resetEdge_cfg (s : State) : (resetEdge s).cfg = s.cfg := rfl
@[simp] theorem resetEdge_key (s : State) : (resetEdge s).key = freeWords s.fresh 8 := rfl
@[simp] theorem resetEdge_kv (s : State) : (resetEdge s).kv = false := rfl
@[simp] theorem resetEdge_sched (s : State) : (resetEdge s).sched = freeWords (s.fresh + 8) 32 := rfl
@[simp] theorem resetEdge_sv (s : State) : (resetEdge s).sv = 0 := rfl
@[simp] theorem resetEdge_last (s : State) : (resetEdge s).last = 0 := rfl
@[simp] theorem resetEdge_started (s : State) : (resetEdge s).started = true := rfl
@[simp] theorem resetEdge_phase (s : State) : (resetEdge s).phase = .idle := rfl
@[simp] theorem resetEdge_cw (s : State) : (resetEdge s).cw = 0 := rfl
@[simp] theorem resetEdge_payload (s : State) : (resetEdge s).payload = [] := rfl
@[simp] theorem resetEdge_rw (s : State) : (resetEdge s).rw = 0 := rfl
@[simp] theorem resetEdge_result (s : State) : (resetEdge s).result = [] := rfl
@[simp] theorem resetEdge_sent (s : State) : (resetEdge s).sent = [] := rfl
@[simp] theorem resetEdge_cmdOffer (s : State) : (resetEdge s).cmdOffer = none := rfl
@[simp] theorem resetEdge_inOffer (s : State) : (resetEdge s).inOffer = none := rfl
@[simp] theorem resetEdge_edges (s : State) : (resetEdge s).edges = s.edges := rfl
@[simp] theorem resetEdge_transcript (s : State) : (resetEdge s).transcript = [] := rfl
@[simp] theorem resetEdge_fresh (s : State) : (resetEdge s).fresh = s.fresh + 40 := rfl

/-! ## The arch view -/

@[simp] theorem archOf_latch (c : Command) (s : State) : archOf (latch c s) = archOf s := rfl

@[simp] theorem archOf_dropEdge (s : State) : archOf (dropEdge s) = archOf s := rfl

@[simp] theorem archOf_noteOffers (pin : PortIn) (s : State) : archOf (noteOffers pin s) = archOf s := rfl

@[simp] theorem archOf_complete (s : State) : archOf (complete s) = archOf s := rfl

@[simp] theorem archOf_respond (c : Code) (op : Nibble) (r : List Byte) (s : State) :
    archOf (respond c op r s) = archOf s := rfl

@[simp] theorem archOf_setLast (c : Code) (s : State) :
    archOf (setLast c s) = { archOf s with last := codeBits c } := rfl

end Sys2Proof.Machine
end

