-- ==== Sys2Proof/Laws/Ops.lean ====
section
/-! SUPPORT. One lemma per shared operation, saying once all it can do: how a command ends, what a
meaning may change, what running the latched command can answer. -/

namespace Sys2Proof.Machine

/-! ## Response words -/

theorem rwCode_responseWord (c : Code) (op : Nibble) (n : Nat) :
    rwCode (responseWord c op n) = codeBits c := by
  ext i hi
  simp only [rwCode, responseWord, BitVec.getElem_extractLsb', BitVec.getLsbD_append]
  simp [hi]

theorem rwOpe_responseWord (c : Code) (op : Nibble) (n : Nat) :
    rwOpe (responseWord c op n) = op := by
  ext i hi
  simp only [rwOpe, responseWord, BitVec.getElem_extractLsb', BitVec.getLsbD_append]
  simp [hi]

theorem rwRlen_responseWord (c : Code) (op : Nibble) (n : Nat) (hn : n < 256) :
    rwRlen (responseWord c op n) = n := by
  have h : (responseWord c op n).extractLsb' 8 8 = BitVec.ofNat 8 n := by
    ext i hi
    have h1 : 8 + i - 4 - 4 = i := by omega
    have h2 : ¬ 8 + i - 4 < 4 := by omega
    simp only [responseWord, BitVec.getElem_extractLsb', BitVec.getLsbD_append]
    have h3 : ¬ 8 + i < 4 := by omega
    simp [hi, h1, h2, h3]
  simp [rwRlen, h, Nat.mod_eq_of_lt hn]

theorem rwRes_responseWord (c : Code) (op : Nibble) (n : Nat) :
    (responseWord c op n).extractLsb' 16 16 = 0 := by
  ext i hi
  have h1 : ¬ 16 + i - 4 < 4 := by omega
  have h2 : ¬ 16 + i - 4 - 4 < 8 := by omega
  have h3 : ¬ 16 + i < 4 := by omega
  simp only [responseWord, BitVec.getElem_extractLsb', BitVec.getLsbD_append]
  simp [h1, h2, h3]

theorem codeBits_le (c : Code) : (codeBits c).toNat ≤ 5 := by
  cases c <;> decide

theorem codeBits_eq_zero_iff (c : Code) : codeBits c = 0 ↔ c = .ok := by
  cases c <;> decide

/-! ## How a command ends -/

/-- `finish` always answers a next state, and this one. -/
theorem finish_eq (op : Nibble) (r : List Byte) (s : State) :
    finish op r s
      = .next { s with last := 0, rw := responseWord .ok op r.length, result := r } := rfl

/-- `raise` always answers a next state: LAST and the response change, nothing else (R207). -/
theorem raise_eq (c : Code) (op : Nibble) (s : State) :
    raise c op s
      = .next { s with last := codeBits c, rw := responseWord c op 0, result := [] } := rfl

/-- The result of a transform is a block (R162). -/
theorem transform_length (sb : SBox) (p : List Byte) (ks : Schedule) :
    (transform sb p ks).length = 8 := rfl

/-! ## What a meaning may change -/

/-- The fields no command writes: the configuration, the transport and the host's side. -/
def SameTransport (s t : State) : Prop :=
  t.cfg = s.cfg ∧ t.started = s.started ∧ t.phase = s.phase ∧ t.cw = s.cw ∧ t.payload = s.payload
    ∧ t.sent = s.sent ∧ t.cmdOffer = s.cmdOffer ∧ t.inOffer = s.inOffer ∧ t.edges = s.edges
    ∧ t.transcript = s.transcript ∧ t.fresh = s.fresh

/-- Every outcome of a meaning, in one form: a next state in which only the architectural state
and the response differ, the response being `respond` of a code, the command's OP and bytes. -/
theorem exec_form (i : Instr) (s : State) :
    ∃ (k : KeyWords) (kv : Bool) (ws : Schedule) (sv : BitVec 32) (c : Code) (r : List Byte),
      exec i s = .next { s with
        key := k, kv := kv, sched := ws, sv := sv
        last := if i = .rdstat then s.last else codeBits c
        rw := responseWord c i.op.code r.length, result := r }
      ∧ (c ≠ .ok → r = []) ∧ (r.length = 0 ∨ r.length = 4 ∨ r.length = 8) := by
  cases i with
  | nop => exact ⟨s.key, s.kv, s.sched, s.sv, .ok, [], rfl, by simp, by simp⟩
  | ldkey p =>
    by_cases h : p.length = 32
    · exact ⟨keyWords p, true, s.sched, s.sv, .ok, [],
        by simp [exec, execLdkey, h, finish, respond, setLast, setKeyValid, writeKey, Instr.op],
        by simp, by simp⟩
    · exact ⟨s.key, s.kv, s.sched, s.sv, .invalidKeyLength, [],
        by simp [exec, execLdkey, h, raise, respond, setLast, Instr.op], by simp, by simp⟩
  | derenc =>
    by_cases h : s.kv = false
    · exact ⟨s.key, s.kv, s.sched, s.sv, .noKey, [],
        by simp [exec, execDerenc, derive, h, raise, respond, setLast, Instr.op], by simp, by simp⟩
    · exact ⟨s.key, s.kv, deriveSched s.key (Op.derenc.code.getLsbD 0), BitVec.allOnes 32, .ok, [],
        by simp [exec, execDerenc, derive, h, finish, respond, setLast, writeSchedAll, Instr.op],
        by simp, by simp⟩
  | derdec =>
    by_cases h : s.kv = false
    · exact ⟨s.key, s.kv, s.sched, s.sv, .noKey, [],
        by simp [exec, execDerdec, derive, h, raise, respond, setLast, Instr.op], by simp, by simp⟩
    · exact ⟨s.key, s.kv, deriveSched s.key (Op.derdec.code.getLsbD 0), BitVec.allOnes 32, .ok, [],
        by simp [exec, execDerdec, derive, h, finish, respond, setLast, writeSchedAll, Instr.op],
        by simp, by simp⟩
  | wrsched i w => exact ⟨s.key, s.kv, _, _, .ok, [], rfl, by simp, by simp⟩
  | rdsched i =>
    cases h : schedValid s i
    · exact ⟨s.key, s.kv, s.sched, s.sv, .scheduleUnset, [],
        by simp [exec, execRdsched, h, raise, respond, setLast, Instr.op], by simp, by simp⟩
    · exact ⟨s.key, s.kv, s.sched, s.sv, .ok, _,
        by simp only [exec, execRdsched, h]; rfl, by simp, by simp [bytesBE32]⟩
  | xform p =>
    by_cases h : p.length = 8
    · cases hv : svAll s
      · exact ⟨s.key, s.kv, s.sched, s.sv, .scheduleUnset, [],
          by simp [exec, execXform, h, hv, raise, respond, setLast, Instr.op], by simp, by simp⟩
      · exact ⟨s.key, s.kv, s.sched, s.sv, .ok, transform s.cfg.sbox p s.sched,
          by simp [exec, execXform, h, hv, finish, respond, setLast, Instr.op], by simp,
          .inr (.inr (transform_length _ _ _))⟩
    · exact ⟨s.key, s.kv, s.sched, s.sv, .invalidBlockLength, [],
        by simp [exec, execXform, h, raise, respond, setLast, Instr.op], by simp, by simp⟩
  | subst w => exact ⟨s.key, s.kv, s.sched, s.sv, .ok, _, rfl, by simp, by simp [bytesBE32]⟩
  | rotl11 w => exact ⟨s.key, s.kv, s.sched, s.sv, .ok, _, rfl, by simp, by simp [bytesBE32]⟩
  | rdstat => exact ⟨s.key, s.kv, s.sched, s.sv, .ok, _, rfl, by simp, by simp [bytesBE32]⟩

/-- A meaning leaves the configuration, the transport and the host's side alone. -/
theorem exec_sameTransport {i : Instr} {s t : State} (h : exec i s = .next t) :
    SameTransport s t := by
  obtain ⟨k, kv, ws, sv, c, r, he, -, -⟩ := exec_form i s
  rw [he] at h
  cases h
  simp [SameTransport]

/-! ## Running the latched command -/

/-- With a payload of LEN bytes, `runLatched` answers a next state: a meaning's, or
IllegalCommand's. -/
theorem runLatched_cases (s : State) (h : s.payload.length = cwLen s.cw) :
    (lookup s.cw = none ∧ runLatched s = illegalCommand s.cw s)
      ∨ ∃ op, lookup s.cw = some op ∧ runLatched s = exec (assemble op s.cw s.payload) s := by
  unfold runLatched decode
  cases hl : lookup s.cw with
  | none => exact .inl ⟨rfl, rfl⟩
  | some op => exact .inr ⟨op, rfl, by simp [h]⟩

end Sys2Proof.Machine
end

