-- ==== Sys2Proof/Laws/Exec.lean ====
section
/-! SUPPORT. What provers cite instead of unfolding the decoder and the dispatch: the decoder as a chain
of tests, OP of a found row, the response words as literals, and what the transaction level keeps. -/

namespace Sys2Proof.Machine

/-! ## The decoder -/

/-- The table lookup of R75 and R76 as a chain of tests. -/
theorem lookup_eq (cw : Word) :
    lookup cw
      = if cw = 0x00000000#32 then some .nop
        else if cw &&& 0xFF00FFFF#32 = 0x00000001#32 then some .ldkey
        else if cw = 0x00000002#32 then some .derenc
        else if cw = 0x00000003#32 then some .derdec
        else if cw &&& 0xFFFFE0FF#32 = 0x00040004#32 then some .wrsched
        else if cw &&& 0xFFFFE0FF#32 = 0x00000005#32 then some .rdsched
        else if cw &&& 0xFF00FFFF#32 = 0x00000006#32 then some .xform
        else if cw = 0x00040007#32 then some .subst
        else if cw = 0x00040008#32 then some .rotl11
        else if cw = 0x00000009#32 then some .rdstat
        else none := by
  have hm : cw &&& 0xFFFFFFFF#32 = cw := BitVec.and_allOnes
  simp only [lookup, opTable, List.find?, Row.matches, hm, beq_eq_decide]
  split_ifs <;> simp_all

/-- When decoding succeeds. -/
theorem decode_ok_iff (cw : Word) (p : List Byte) (i : Instr) :
    decode cw p = .ok i
      ↔ ∃ op, lookup cw = some op ∧ p.length = cwLen cw ∧ i = assemble op cw p := by
  unfold decode
  cases lookup cw with
  | none => simp
  | some op => by_cases hp : p.length = cwLen cw <;> simp [hp, eq_comm]

/-- When a command word is illegal: whatever its payload (R203). -/
theorem decode_illegal_iff (cw : Word) (p : List Byte) :
    decode cw p = .error .illegalCommand ↔ lookup cw = none := by
  unfold decode
  cases lookup cw with
  | none => simp
  | some op => by_cases hp : p.length = cwLen cw <;> simp [hp]

/-- Every mask covers OP, so CW's OP is the row's (R71, R76). -/
theorem op_code_of_lookup {cw : Word} {op : Op} (h : lookup cw = some op) : op.code = cwOp cw := by
  obtain ⟨r, hr, rfl, hm⟩ := lookup_some h
  have hrows : ∀ r ∈ opTable,
      r.mask.extractLsb' 0 4 = BitVec.allOnes 4 ∧ r.mtch.extractLsb' 0 4 = r.op.code := by decide
  have hrow := hrows r hr
  have := congrArg (BitVec.extractLsb' 0 4) hm
  rw [BitVec.extractLsb'_and, hrow.1, hrow.2, BitVec.and_allOnes] at this
  exact this.symm

/-! ## Response words as literals (R78) -/

theorem responseWord_nop : responseWord .ok Op.nop.code 0 = 0x00000000#32 := by decide
theorem responseWord_ldkey : responseWord .ok Op.ldkey.code 0 = 0x00000010#32 := by decide
theorem responseWord_derenc : responseWord .ok Op.derenc.code 0 = 0x00000020#32 := by decide
theorem responseWord_derdec : responseWord .ok Op.derdec.code 0 = 0x00000030#32 := by decide
theorem responseWord_wrsched : responseWord .ok Op.wrsched.code 0 = 0x00000040#32 := by decide
theorem responseWord_rdsched : responseWord .ok Op.rdsched.code 4 = 0x00000450#32 := by decide
theorem responseWord_xform : responseWord .ok Op.xform.code 8 = 0x00000860#32 := by decide
theorem responseWord_subst : responseWord .ok Op.subst.code 4 = 0x00000470#32 := by decide
theorem responseWord_rotl11 : responseWord .ok Op.rotl11.code 4 = 0x00000480#32 := by decide
theorem responseWord_rdstat : responseWord .ok Op.rdstat.code 8 = 0x00000890#32 := by decide

/-! ## SVALL -/

/-- SVALL is 1 exactly when every SV bit is 1 (R25). -/
theorem svAll_iff (s : State) : svAll s = true ↔ ∀ i : Fin 32, s.sv.getLsbD i.val = true := by
  simp only [svAll, beq_iff_eq]
  constructor
  · intro h i
    rw [h, BitVec.getLsbD_allOnes]
    exact decide_eq_true i.isLt
  · intro h
    apply BitVec.eq_of_getLsbD_eq
    intro i hi
    rw [h ⟨i, hi⟩, BitVec.getLsbD_allOnes, decide_eq_true hi]

/-! ## Commands read the architectural state and the S-box only -/

/-- Equal architectural states and S-boxes give equal responses and equal architectural states. -/
theorem exec_congr (i : Instr) {s t : State} (ha : archOf s = archOf t)
    (hb : s.cfg.sbox = t.cfg.sbox) :
    ∃ s' t', exec i s = .next s' ∧ exec i t = .next t' ∧ archOf s' = archOf t'
      ∧ responseOf s' = responseOf t' := by
  simp only [archOf, Arch.mk.injEq] at ha
  obtain ⟨h1, h2, h3, h4, h5⟩ := ha
  cases i with
  | nop => simp [exec, execNop, finish_eq, archOf, responseOf, *]
  | ldkey p =>
    by_cases h : p.length = 32 <;>
      simp [exec, execLdkey, finish_eq, raise_eq, archOf, responseOf, setKeyValid, writeKey, *]
  | derenc =>
    cases h : t.kv <;>
      simp [exec, execDerenc, derive, finish_eq, raise_eq, archOf, responseOf, writeSchedAll, *]
  | derdec =>
    cases h : t.kv <;>
      simp [exec, execDerdec, derive, finish_eq, raise_eq, archOf, responseOf, writeSchedAll, *]
  | wrsched i w => simp [exec, execWrsched, finish_eq, archOf, responseOf, *]
  | rdsched i =>
    have hv : schedValid s i = schedValid t i := by rw [schedValid, schedValid, h4]
    have hr : readSched i s = readSched i t := by rw [readSched, readSched, h3]
    cases h : schedValid t i <;>
      simp [exec, execRdsched, finish_eq, raise_eq, archOf, responseOf, *]
  | xform p =>
    have hv : svAll s = svAll t := by rw [svAll, svAll, h4]
    by_cases h : p.length = 8 <;> cases h' : svAll t <;>
      simp [exec, execXform, finish_eq, raise_eq, archOf, responseOf, *]
  | subst w => simp [exec, execSubst, finish_eq, archOf, responseOf, *]
  | rotl11 w => simp [exec, execRotl11, finish_eq, archOf, responseOf, *]
  | rdstat => simp [exec, execRdstat, respond, archOf, responseOf, statusWord, svMask, svAll, *]

/-- Running the latched command leaves the configuration, the transport and the host's side alone. -/
theorem runLatched_sameTransport {s t : State} (h : runLatched s = .next t) : SameTransport s t := by
  unfold runLatched at h
  split at h
  · exact exec_sameTransport h
  · rw [illegalCommand, raise_eq] at h
    cases h
    simp [SameTransport]
  · cases h

/-! ## Programs -/

/-- A program of two parts (R54): the second goes on where the first ends. -/
theorem runProgram_append (cs ds : List Command) {s t u : State} {rs qs : List Response}
    (h1 : runProgram cs s = .next (t, rs)) (h2 : runProgram ds t = .next (u, qs)) :
    runProgram (cs ++ ds) s = .next (u, rs ++ qs) := by
  induction cs generalizing s rs with
  | nil =>
    simp only [runProgram, Host.Outcome.next.injEq, Prod.mk.injEq] at h1
    obtain ⟨rfl, rfl⟩ := h1
    exact h2
  | cons c cs ih =>
    rw [runProgram] at h1
    cases h3 : transact c s with
    | next v =>
      rw [h3] at h1
      cases h4 : runProgram cs v with
      | next w =>
        obtain ⟨w, ws⟩ := w
        simp only [h4, Host.Outcome.next.injEq, Prod.mk.injEq] at h1
        obtain ⟨rfl, rfl⟩ := h1
        simp [runProgram, h3, ih h4]
      | fault f => simp [h4] at h1
      | refused r => simp [h4] at h1
    | fault f => simp [h3] at h1
    | refused r => simp [h3] at h1

end Sys2Proof.Machine
end

