-- ==== Sys2Proof/Laws/PerInstr.lean ====
section
/-! SUPPORT. Statements for all instructions, one lemma per constructor. EncodedPayload: the payload of
an encoded instruction has the length its row of the opcode map asks for (30_encoding.md R76). -/

namespace Sys2Proof.Laws.EncodedPayload

/-- The fixed LEN of the row is the payload's length, or the row's LEN is variable (R76). -/
def Statement (i : Instr) : Prop :=
  (i.op = .ldkey ∨ i.op = .xform)
    ∨ (i.op = .wrsched ∨ i.op = .subst ∨ i.op = .rotl11) ∧ (encode i).payload.length = 4
    ∨ (encode i).payload.length = 0

theorem nop : Statement .nop := .inr (.inr rfl)
theorem ldkey (p : List Byte) : Statement (.ldkey p) := .inl (.inl rfl)
theorem derenc : Statement .derenc := .inr (.inr rfl)
theorem derdec : Statement .derdec := .inr (.inr rfl)
theorem wrsched (i : Fin 32) (w : Word) : Statement (.wrsched i w) := .inr (.inl ⟨.inl rfl, rfl⟩)
theorem rdsched (i : Fin 32) : Statement (.rdsched i) := .inr (.inr rfl)
theorem xform (p : List Byte) : Statement (.xform p) := .inl (.inr rfl)
theorem subst (w : Word) : Statement (.subst w) := .inr (.inl ⟨.inr (.inl rfl), rfl⟩)
theorem rotl11 (w : Word) : Statement (.rotl11 w) := .inr (.inl ⟨.inr (.inr rfl), rfl⟩)
theorem rdstat : Statement .rdstat := .inr (.inr rfl)

end Sys2Proof.Laws.EncodedPayload
end

