-- ==== Sys2Proof/Laws/Transport.lean ====
section
/-! SUPPORT. What one edge can do, said once, so that no proof unfolds `step`: the inversion of a step
without rst, of the settling of EXEC, and the move of each phase. -/

namespace Sys2Proof.Machine

/-- An edge with rst = 1 (R230). -/
theorem step_rst {s : State} (hr : (nextInputs s).rst = true) :
    step s = .next (resetEdge (dropEdge s)) := by
  simp [step, edge, hr]

/-- A step without rst that answers a next state: what must hold before, and what is then done. -/
theorem step_next {s t : State} (hr : (nextInputs s).rst = false) (h : step s = .next t) :
    s.started = true ∧ keepsDuty (nextInputs s) s = true ∧ showsReservedCode s = false
      ∧ settle (advance (nextInputs s) (noteOffers (nextInputs s) (dropEdge s))) = .next t := by
  have hk : keepsDuty (nextInputs s) (dropEdge s) = keepsDuty (nextInputs s) s := rfl
  have hs : showsReservedCode (dropEdge s) = showsReservedCode s := rfl
  simp only [step, edge, hr, hk, hs, dropEdge_started, Bool.false_eq_true, if_false] at h
  split at h
  · cases h
  split at h
  · cases h
  split at h
  · cases h
  simp_all

/-- Settling: nothing happens, or the edge leaves EXEC and runs the command (R88). -/
theorem settle_next {s t : State} (h : settle s = .next t) :
    (s.phase ≠ .exec 0 ∧ t = s)
      ∨ s.phase = .exec 0 ∧ ∃ u, runLatched s = .next u ∧ t = { u with phase := .resp } := by
  unfold settle at h
  split at h
  case h_1 hp =>
    refine .inr ⟨hp, ?_⟩
    unfold leaveExec at h
    split at h
    · cases h; exact ⟨_, ‹_›, rfl⟩
    · cases h
    · cases h
  case h_2 hp => cases h; exact .inl ⟨hp, rfl⟩

/-- Settling changes no transport register but the phase. -/
theorem settle_sameTransport {s t : State} (h : settle s = .next t) :
    SameTransport s { t with phase := s.phase } := by
  obtain ⟨-, rfl⟩ | ⟨-, u, hu, rfl⟩ := settle_next h
  · simp [SameTransport]
  · have := runLatched_sameTransport hu
    simp_all [SameTransport]

/-- The phase after settling: EXEC with no cycle left becomes RESP. -/
theorem settle_phase {s t : State} (h : settle s = .next t) :
    t.phase = if s.phase = .exec 0 then .resp else s.phase := by
  obtain ⟨hp, rfl⟩ | ⟨hp, u, -, rfl⟩ := settle_next h <;> simp [hp]

/-- Whether a command will succeed depends on the command, the S-box and the architectural state only. -/
theorem succeeds_congr {s t : State} (hc : s.cfg = t.cfg) (ha : archOf s = archOf t)
    (hw : s.cw = t.cw) (hp : s.payload = t.payload) : succeeds s = succeeds t := by
  have hrun : ∀ u : State, succeeds u
      = match runLatched u with | .next v => rwCode v.rw == 0 | _ => false := by
    intro u
    unfold succeeds
    split <;> simp_all
  rw [hrun, hrun, runLatched, runLatched, hw, hp]
  cases decode t.cw t.payload with
  | error e => cases e <;> simp [illegalCommand, raise_eq]
  | ok i =>
    obtain ⟨s', t', hs, ht, -, hr⟩ := exec_congr i ha (congrArg Config.sbox hc)
    simp only [responseOf, Response.mk.injEq] at hr
    simp only [hs, ht, hr.1]

/-! ## The move of each phase (R86) -/

theorem advance_idle {s : State} (pin : PortIn) (h : s.phase = .idle) :
    advance pin s = match pin.cmd with | some w => takeCommand w s | none => s := by
  cases hc : pin.cmd <;> simp [advance, cmdTransfer, outputs, h, hc]

theorem advance_payload {s : State} {n : Nat} (pin : PortIn) (h : s.phase = .payload n) :
    advance pin s = match pin.inb with | some b => takeByte n b s | none => s := by
  cases hb : pin.inb <;> simp [advance, inTransfer, outputs, h, hb]

theorem advance_exec {s : State} {n : Nat} (pin : PortIn) (h : s.phase = .exec n) :
    advance pin s = { s with phase := .exec (n - 1) } := by
  simp [advance, h]

theorem advance_resp {s : State} (pin : PortIn) (h : s.phase = .resp) :
    advance pin s = if pin.rspReady then giveResponse s else s := by
  simp [advance, rspTransfer, outputs, h]

theorem advance_out {s : State} {n : Nat} (pin : PortIn) (h : s.phase = .out n) :
    advance pin s = if pin.outReady then giveByte n s else s := by
  simp [advance, outTransfer, outputs, h]

end Sys2Proof.Machine
end

