-- ==== Sys2Proof/Tests/Slice0.lean ====
section
/-! SUPPORT. The model's own tests. Expected values are those of spec/95_test_vectors.md and of the rules'
examples, not the model's; each test names its source. At the end: a witness for every hypothesis of a
statement. -/

namespace Sys2Proof.Tests
open Sys2Proof Sys2Proof.Machine

/-! ## WellFormed: an ill-formed term for each check -/

theorem test_ldkey_256_bytes_refused : (Instr.ldkey (List.replicate 256 0)).wf = false := by
  rw [Instr.wf, payloadFits, List.length_replicate]; rfl
theorem test_xform_256_bytes_refused : (Instr.xform (List.replicate 256 0)).wf = false := by
  rw [Instr.wf, payloadFits, List.length_replicate]; rfl
theorem test_ldkey_255_bytes_accepted : (Instr.ldkey (List.replicate 255 0)).wf = true := by
  rw [Instr.wf, payloadFits, List.length_replicate]; rfl

/-! ## Decoding: words written out bit by bit from R70 and R76 -/

theorem test_decode_nop : decode 0b00000000000000000000000000000000#32 [] = .ok .nop := by decide
theorem test_decode_ldkey :
    decode 0b00000000001000000000000000000001#32 (List.replicate 32 7) = .ok (.ldkey (List.replicate 32 7)) := by
  decide
theorem test_decode_ldkey_len0 : decode 0b00000000000000000000000000000001#32 [] = .ok (.ldkey []) := by decide
theorem test_decode_derenc : decode 0b00000000000000000000000000000010#32 [] = .ok .derenc := by decide
theorem test_decode_derdec : decode 0b00000000000000000000000000000011#32 [] = .ok .derdec := by decide
theorem test_decode_wrsched :
    decode 0b00000000000001000001111100000100#32 [0x73, 0x3d, 0x2c, 0x20] = .ok (.wrsched 31 0x733d2c20#32) := by
  decide
theorem test_decode_rdsched : decode 0b00000000000000000001000100000101#32 [] = .ok (.rdsched 17) := by decide
theorem test_decode_xform :
    decode 0b00000000000001110000000000000110#32 (List.replicate 7 1) = .ok (.xform (List.replicate 7 1)) := by decide
theorem test_decode_subst :
    decode 0b00000000000001000000000000000111#32 [0x12, 0x34, 0x56, 0x78] = .ok (.subst 0x12345678#32) := by decide
theorem test_decode_rotl11 :
    decode 0b00000000000001000000000000001000#32 [0x12, 0x34, 0x56, 0x78] = .ok (.rotl11 0x12345678#32) := by decide
theorem test_decode_rdstat : decode 0b00000000000000000000000000001001#32 [] = .ok .rdstat := by decide

/-- 95 section 2.7, the rows with code 3, and 2.1. -/
theorem test_decode_illegal_words :
    ([0x0000000a, 0x0000000f, 0x00000012, 0x00000102, 0x80000009, 0x00002004, 0x00070016, 0x00050004,
      0x00030007, 0x00000008, 0x00040005, 0x00010000] : List Word).all
        (fun cw => decode cw (List.replicate (cwLen cw) 0) == .error .illegalCommand) = true := by decide

theorem test_decode_short_payload : decode 0x00040007#32 [1, 2, 3] = .error .payloadLength := by decide

/-- 95 section 2.8. -/
theorem test_encode_wrsched : encode (.wrsched 31 0x733d2c20#32) = ⟨0x00041f04#32, [0x73, 0x3d, 0x2c, 0x20]⟩ := by
  decide
theorem test_encode_ldkey_31 : (encode (.ldkey (List.replicate 31 0))).cw = 0x001f0001#32 := by decide

theorem test_decodeTableWord_wrsched : decodeTableWord 32 0x00041f04 = some (.wrsched 31 0) := by decide
theorem test_decodeTableWord_illegal : decodeTableWord 32 0x00002004 = none := by decide

/-! ## One command each -/

/-- A state after reset with the given key and KV. -/
def withKey (k : KeyWords) : State := { State.reset with key := k, kv := true }

/-- A state after reset with the given schedule, all entries valid. -/
def withSched (ws : Schedule) : State := { State.reset with sched := ws, sv := BitVec.allOnes 32 }

/-- The next state of one command, or the reset state where it stops. -/
def after (r : Result) : State :=
  match r with
  | .next s => s
  | .fault _ => State.reset
  | .refused _ => State.reset

/-- The key words of the §8 key (95 section 1.2). -/
def key8 : KeyWords :=
  #v[0x733d2c20, 0x65686573, 0x74746769, 0x79676120, 0x626e7373, 0x20657369, 0x326c6568, 0x33206d54]

/-- The bytes of the §8 key (95 section 1.1 item 5). -/
def key8Bytes : List Byte :=
  [0x73, 0x3d, 0x2c, 0x20, 0x65, 0x68, 0x65, 0x73, 0x74, 0x74, 0x67, 0x69, 0x79, 0x67, 0x61, 0x20,
   0x62, 0x6e, 0x73, 0x73, 0x20, 0x65, 0x73, 0x69, 0x32, 0x6c, 0x65, 0x68, 0x33, 0x20, 0x6d, 0x54]

/-- 95 section 2.6: NOP clears LAST, RW = 0. -/
theorem test_nop : (after (exec .nop { State.reset with last := 5, rw := 7 })).last = 0
    ∧ (after (exec .nop { State.reset with last := 5, rw := 7 })).rw = 0 := by decide

/-- R101's example. -/
theorem test_ldkey : (after (exec (.ldkey key8Bytes) State.reset)).key = key8
    ∧ (after (exec (.ldkey key8Bytes) State.reset)).rw = 0x00000010#32 := by decide

/-- 95 section 2.1: 31 bytes fail and the old key stays. -/
theorem test_ldkey_31 : (after (exec (.ldkey (List.replicate 31 0)) (withKey key8))).key = key8
    ∧ (after (exec (.ldkey (List.replicate 31 0)) (withKey key8))).rw = 0x00000011#32 := by decide

/-- R106's example. -/
theorem test_derenc : (after (exec .derenc (withKey key8))).sched[24] = 0x33206d54#32
    ∧ (after (exec .derenc (withKey key8))).sched[8] = 0x733d2c20#32 := by decide

/-- 95 section 2.1: NoKey. -/
theorem test_derenc_nokey : (after (exec .derenc State.reset)).rw = 0x00000024#32 := by decide

/-- R111's example. -/
theorem test_derdec : (after (exec .derdec (withKey key8))).sched[8] = 0x33206d54#32
    ∧ (after (exec .derdec (withKey key8))).sched[31] = 0x733d2c20#32 := by decide

/-- 95 section 2.1: NoKey. -/
theorem test_derdec_nokey : (after (exec .derdec State.reset)).rw = 0x00000034#32 := by decide

/-- R113's example. -/
theorem test_wrsched : (after (exec (.wrsched 31 0x733d2c20#32) State.reset)).sched[31] = 0x733d2c20#32
    ∧ (after (exec (.wrsched 31 0x733d2c20#32) State.reset)).sv = 0x80000000#32 := by decide

/-- R114's example. -/
theorem test_rdsched : (after (exec (.rdsched 24) (withSched (encSched key8)))).result = [0x33, 0x20, 0x6d, 0x54]
    ∧ (after (exec (.rdsched 24) (withSched (encSched key8)))).rw = 0x00000450#32 := by decide

/-- 95 section 2.1: ScheduleUnset. -/
theorem test_rdsched_unset : (after (exec (.rdsched 3) State.reset)).rw = 0x00000055#32 := by decide

/-- 95 section 2.5: §8 key as given, non-zero plaintext; it exercises the input packing. -/
theorem test_xform :
    (after (exec (.xform [0x01, 0x23, 0x45, 0x67, 0x89, 0xab, 0xcd, 0xef]) (withSched (encSched key8)))).result
      = [0x23, 0xb3, 0x6e, 0xc2, 0xe8, 0x31, 0x5e, 0xc0] := by decide +kernel

/-- 95 section 2.5: length is checked before readiness. -/
theorem test_xform_7 : (after (exec (.xform (List.replicate 7 0)) State.reset)).rw = 0x00000062#32 := by decide

/-- §8's known vector (95 section 1.2): encSched of K7..K0 on the zero block. -/
theorem test_known_vector :
    transform defaultSBox (List.replicate 8 0) (encSched key8.reverse)
      = [0x42, 0xab, 0xbc, 0xce, 0x32, 0xbc, 0x0b, 0x1b] := by decide +kernel

/-- R146's example, and 95 section 2.2. -/
theorem test_subst : (after (exec (.subst 0x12345678#32) State.reset)).result = [0xf4, 0x05, 0x84, 0xa6] := by decide
theorem test_subst_words :
    substitute defaultSBox 0 = 0x1d4675e4#32 ∧ substitute defaultSBox 0xffffffff#32 = 0xcce23b93#32
    ∧ substitute defaultSBox 0x80000000#32 = 0x9d4675e4#32
    ∧ substitute defaultSBox 0xfedcba98#32 = 0xc2c0cc36#32 := by decide

/-- R147's example. -/
theorem test_rotl11 : (after (exec (.rotl11 0x12345678#32) State.reset)).result = [0xa2, 0xb3, 0xc0, 0x91] := by
  decide
theorem test_rotl11_wraps : rotl11 0x80000000#32 = 0x00000400#32 := by decide

/-- 95 section 2.6: KV = 0, SV all 1, LAST = 4 (program P2): STATUS = 0x42. -/
theorem test_rdstat :
    (after (exec .rdstat { withSched (encSched key8) with last := 4 })).result
      = [0x00, 0x00, 0x00, 0x42, 0xff, 0xff, 0xff, 0xff] := by decide

/-- 95 section 2.6: only SV[0] and SV[31]. -/
theorem test_rdstat_mask :
    (after (exec .rdstat { State.reset with sv := 0x80000001#32 })).result
      = [0x00, 0x00, 0x00, 0x00, 0x80, 0x00, 0x00, 0x01] := by decide

/-! ## Steps -/

/-- 95 section 2.7: a reserved OP, run as the first command after reset. -/
theorem test_step_illegal : (after (step (State.reset.withFetchWord 32 0x0000000f))).rw = 0x000000f3#32
    ∧ (after (step (State.reset.withFetchWord 32 0x0000000f))).last = 3 := by decide

/-- 95 section 2.5: XFORM as the first command after reset. -/
theorem test_step_xform_unset : (after (step (State.reset.withFetchWord 32 0x00080006))).rw = 0x00000065#32 := by
  decide

/-- R86: in IDLE a command word with LEN = 4 leads to PAYLOAD(4). -/
theorem test_step_takes_command :
    (after (step (State.reset.withProgram 0 [⟨0x00040007#32, [0x12, 0x34, 0x56, 0x78]⟩]))).phase = .payload 4 := by
  decide

/-- R83's ENCRYPT, in R82's syntax, with the command words of 95 section 2.8. -/
theorem test_assemble :
    assembleText "ENCRYPT 00 01 02 03 04 05 06 07 ; comment" = some
      [⟨0x00000002#32, []⟩, ⟨0x00080006#32, [0, 1, 2, 3, 4, 5, 6, 7]⟩] := by decide

/-- R82's .word, with its payload on the next line. -/
theorem test_assemble_word : assembleText ".word 0x00010000\n ab\nRDSCHED 17" = some
    [⟨0x00010000#32, [0xab]⟩, ⟨0x00001105#32, []⟩] := by decide +kernel

/-! ## Witnesses: states and operands that meet the hypotheses of the statements -/

/-- In EXEC with one cycle left, no rst, offers kept. -/
def ready (c : Command) : State := placeCommand c State.reset

/-- A state at the given phase whose next edge brings `pin`. -/
def atPhase (ph : Phase) (pin : PortIn) : State := { State.reset with phase := ph, edges := [pin] }

theorem witness_wf_boundary :
    (Instr.ldkey (List.replicate 255 0)).wf = true ∧ (Instr.xform []).wf = true := by
  refine ⟨?_, rfl⟩
  rw [Instr.wf, payloadFits, List.length_replicate]; rfl
theorem witness_decode_ok : decode 0x00041f04#32 [1, 2, 3, 4] = .ok (.wrsched 31 0x01020304#32) := by decide
theorem witness_opcode_map_length : ([0] : List Byte).length = ((0x00010000#32).extractLsb' 16 8).toNat
    ∧ 0xA ≤ ((0x0000000a#32).extractLsb' 0 4).toNat := by decide
theorem witness_illegal : decode 0x0000000a#32 [] = .error .illegalCommand := by decide
theorem witness_rows : ∀ r ∈ opTable, r.mtch &&& r.mask = r.mtch := by decide
theorem witness_packing : 0 + 3 < ([1, 2, 3, 4] : List Byte).length := by decide
theorem witness_illegal_of_each_op :
    (0x00000100#32).extractLsb' 0 4 = 0 ∧ (0x00000100#32 : Word) ≠ 0
    ∧ (0x00050004#32).extractLsb' 0 4 = 4 ∧ 0x00050004#32 &&& 0xFFFFE0FF#32 ≠ 0x00040004#32
    ∧ (0x00030007#32).extractLsb' 0 4 = 7 ∧ (0x00030007#32 : Word) ≠ 0x00040007#32
    ∧ (0x00000008#32).extractLsb' 0 4 = 8 ∧ (0x00000008#32 : Word) ≠ 0x00040008#32
    ∧ (0x80000009#32).extractLsb' 0 4 = 9 ∧ (0x80000009#32 : Word) ≠ 0x00000009#32 := by decide
theorem witness_ldkey_lengths : key8Bytes.length = 32 ∧ (List.replicate 33 (0 : Byte)).length ≠ 32 := by decide
theorem witness_kv : (withKey key8).kv = true ∧ State.reset.kv = false := by decide
theorem witness_schedule_ranges :
    (23 < 24 ∧ 24 < 32 ∧ 24 ≤ 24 ∧ 31 < 32) ∧ (7 < 8 ∧ 8 ≤ 8) ∧ (30 < 31) := by decide
theorem witness_rdsched : (withSched (encSched key8)).sv.getLsbD (31 : Fin 32).val = true
    ∧ State.reset.sv.getLsbD (31 : Fin 32).val = false := by decide
theorem witness_xform : (∀ i : Fin 32, (withSched (encSched key8)).sv.getLsbD i.val = true)
    ∧ (List.replicate 8 (0 : Byte)).length = 8 ∧ (List.replicate 9 (0 : Byte)).length ≠ 8
    ∧ State.reset.sv.getLsbD (0 : Fin 32).val = false := by decide
theorem witness_rotations : 0 < 31 ∧ 31 < 32 := by decide
theorem witness_nibble : (4#4 : Nibble) = (0x40000000#32).extractLsb' (4 * (7 : Fin 8).val) 4 := by decide
theorem witness_reversed_schedule :
    ∀ i : Fin 32, (decSched key8)[i] = (encSched key8)[31 - i.val] := by decide
theorem witness_zero_key : (withKey (Vector.replicate 8 0)).kv = true
    ∧ (withKey (Vector.replicate 8 0)).key = Vector.replicate 8 0 := by decide

/-- WriteTable, success: every clause's instruction completes with code 0 somewhere. -/
theorem witness_write_table :
    rwCode (after (exec (.ldkey key8Bytes) State.reset)).rw = 0
    ∧ rwCode (after (exec .derenc (withKey key8))).rw = 0
    ∧ rwCode (after (exec .derdec (withKey key8))).rw = 0
    ∧ rwCode (after (exec (.wrsched 0 1) State.reset)).rw = 0
    ∧ rwCode (after (exec .rdstat State.reset)).rw = 0 := by decide

/-- WriteTable and ErrorWritesOnlyLast, failure. -/
theorem witness_failure : rwCode (after (transact ⟨0x00000002#32, []⟩ State.reset)).rw ≠ 0 := by decide
theorem witness_command_length : ([] : List Byte).length = ((0x00000002#32).extractLsb' 16 8).toNat
    ∧ (⟨0x00000002#32, []⟩ : Command).wf = true := by decide

theorem witness_same_readable :
    SameReadable State.reset { State.reset with key := key8, sched := encSched key8 } := by
  refine ⟨rfl, rfl, rfl, rfl, by decide, ?_⟩
  decide
theorem witness_after_reset :
    AfterReset State.reset ∧ AfterReset { State.reset with key := key8, sched := encSched key8 } :=
  ⟨⟨rfl, rfl, rfl⟩, ⟨rfl, rfl, rfl⟩⟩
theorem witness_key_index : 7 < 8 := by decide
theorem witness_repeat : ∃ t, exec (.ldkey key8Bytes) State.reset = .next t := ⟨_, rfl⟩
theorem witness_parameters : ({ Config.default with latXform := 0, base := 4 } : Config).sbox = State.reset.cfg.sbox := by
  decide

theorem witness_step_runs :
    (ready ⟨0x00000000#32, []⟩).phase = .exec 1 ∧ (ready ⟨0x00000000#32, []⟩).started = true
    ∧ (nextInputs (ready ⟨0x00000000#32, []⟩)).rst = false
    ∧ keepsDuty (nextInputs (ready ⟨0x00000000#32, []⟩)) (ready ⟨0x00000000#32, []⟩) = true
    ∧ decode (ready ⟨0x00000000#32, []⟩).cw (ready ⟨0x00000000#32, []⟩).payload = .ok .nop := by decide
theorem witness_step_runs_next : ∃ t, exec .nop (ready ⟨0x00000000#32, []⟩) = .next t := ⟨_, rfl⟩
theorem witness_step_illegal :
    (ready ⟨0x0000000f#32, []⟩).phase = .exec 1 ∧ (ready ⟨0x0000000f#32, []⟩).started = true
    ∧ (nextInputs (ready ⟨0x0000000f#32, []⟩)).rst = false
    ∧ keepsDuty (nextInputs (ready ⟨0x0000000f#32, []⟩)) (ready ⟨0x0000000f#32, []⟩) = true
    ∧ decode (ready ⟨0x0000000f#32, []⟩).cw (ready ⟨0x0000000f#32, []⟩).payload = .error .illegalCommand := by
  decide

/-- Transport statements: at each phase, a step with and without a transfer answers a next state. -/
theorem witness_phases :
    (∃ t, step (atPhase .idle readyHost) = .next t)
    ∧ (∃ t, step (atPhase .idle { readyHost with cmd := some 0x00040007#32 }) = .next t)
    ∧ (∃ t, step (atPhase .idle { readyHost with cmd := some 0#32 }) = .next t)
    ∧ (∃ t, step (atPhase (.payload 2) readyHost) = .next t)
    ∧ (∃ t, step (atPhase (.payload 2) { readyHost with inb := some 1 }) = .next t)
    ∧ (∃ t, step (atPhase (.exec 2) readyHost) = .next t)
    ∧ (∃ t, step (atPhase .resp readyHost) = .next t)
    ∧ (∃ t, step (atPhase .resp { readyHost with rspReady := false }) = .next t)
    ∧ (∃ t, step (atPhase (.out 2) readyHost) = .next t)
    ∧ (∃ t, step (atPhase (.out 1) { readyHost with outReady := false }) = .next t) :=
  ⟨⟨_, rfl⟩, ⟨_, rfl⟩, ⟨_, rfl⟩, ⟨_, rfl⟩, ⟨_, rfl⟩, ⟨_, rfl⟩, ⟨_, rfl⟩, ⟨_, rfl⟩, ⟨_, rfl⟩, ⟨_, rfl⟩⟩

/-- PhasesFollowTheTransport at the last byte and the last cycle. -/
theorem witness_last_byte :
    (∃ t, step { atPhase (.payload 1) { readyHost with inb := some 0 } with
        cw := 0x00040007#32, payload := [0, 0, 0] } = .next t)
    ∧ (∃ t, step (atPhase (.exec 1) readyHost) = .next t) := ⟨⟨_, rfl⟩, ⟨_, rfl⟩⟩

/-- PayloadBytesAreTakenOnlyInPayload, result bytes. -/
theorem witness_out_byte :
    ({ atPhase (.out 4) readyHost with rw := 0x00000470#32, result := [1, 2, 3, 4] } : State).result[
      ((0x00000470#32).extractLsb' 8 8).toNat - 4]? = some 1 := by decide

theorem witness_waits :
    keepsDuty (nextInputs (atPhase (.payload 1) readyHost)) (atPhase (.payload 1) readyHost) = true
    ∧ (nextInputs (atPhase (.payload 1) readyHost)).inb = none
    ∧ ((atPhase (.payload 1) readyHost).rw.extractLsb' 0 4).toNat ≤ 5
    ∧ (nextInputs (atPhase .resp { readyHost with rspReady := false })).rspReady = false
    ∧ (nextInputs (atPhase (.out 1) { readyHost with outReady := false })).outReady = false := by decide
theorem witness_broken_offers :
    ({ atPhase .resp readyHost with cmdOffer := some 1 } : State).cmdOffer = some 1
    ∧ (nextInputs { atPhase .resp readyHost with cmdOffer := some 1 }).cmd ≠ some 1
    ∧ ({ atPhase .resp readyHost with inOffer := some 1 } : State).inOffer = some 1
    ∧ (nextInputs { atPhase .resp readyHost with inOffer := some 1 }).inb ≠ some 1 := by decide
theorem witness_reset_edge : (nextInputs (atPhase (.out 3) { readyHost with rst := true })).rst = true := by decide
theorem witness_before_reset :
    ({ State.reset with started := false } : State).started = false
    ∧ (nextInputs { State.reset with started := false }).rst = false := by decide
theorem witness_invariant_step :
    TransportInv (ready ⟨0x00000000#32, []⟩) ∧ ∃ t, step (ready ⟨0x00000000#32, []⟩) = .next t :=
  ⟨⟨⟨by decide, rfl⟩, by decide⟩, ⟨_, rfl⟩⟩
theorem witness_dutiful : TransportInv State.reset ∧ State.reset.started = true ∧ HostKeepsDuty State.reset :=
  ⟨⟨trivial, by decide⟩, rfl, .inr rfl⟩
theorem witness_simulates : Simulates (ready ⟨0x00000000#32, []⟩) :=
  ⟨State.reset, State.reset, ⟨rfl, rfl, rfl⟩, rfl, rfl, rfl⟩
theorem witness_port_run :
    ∃ s, Host.Core.run Sys2Proof.core 2 (State.reset.withProgram 3 [⟨0x00000000#32, []⟩]) = .next s := ⟨_, rfl⟩
theorem witness_valid_bits :
    ({ withSched (encSched key8) with kv := true } : State).kv = true
    ∧ ({ withSched (encSched key8) with kv := true } : State).sv.getLsbD (31 : Fin 32).val = true
    ∧ (nextInputs { withSched (encSched key8) with kv := true }).rst = false
    ∧ ∃ t, step { withSched (encSched key8) with kv := true } = .next t :=
  ⟨rfl, by decide, rfl, ⟨_, rfl⟩⟩

/-- ExecTimeIsIndependentOfData, payload bytes: two SUBSTs about to take different last bytes. -/
def lastByte (b : Byte) : State :=
  { atPhase (.payload 1) { readyHost with inb := some b } with cw := 0x00040007#32, payload := [0, 0, 0] }

theorem witness_exec_time_payload :
    (lastByte 1).cfg = (lastByte 2).cfg ∧ (nextInputs (lastByte 1)).rst = false
    ∧ succeeds (latch ⟨0x00040007#32, [0, 0, 0, 1]⟩ (lastByte 1))
        = succeeds (latch ⟨0x00040007#32, [0, 0, 0, 2]⟩ (lastByte 2)) := by decide
theorem witness_exec_time_payload_last : TakesLast (lastByte 1) ⟨0x00040007#32, [0, 0, 0, 1]⟩ :=
  .inl ⟨rfl, 1, rfl, rfl⟩
theorem witness_exec_time_payload_step :
    (∃ t, step (lastByte 1) = .next t) ∧ ∃ t, step (lastByte 2) = .next t := ⟨⟨_, rfl⟩, ⟨_, rfl⟩⟩

/-- The all-zero key. -/
def zeroKey : KeyWords := Vector.replicate 8 0

/-- ExecTimeIsIndependentOfData, LEN = 0: DERENC offered in IDLE under a given key. -/
def offersDerenc (k : KeyWords) : State :=
  { withKey k with edges := [{ readyHost with cmd := some 0x00000002#32 }] }

theorem witness_exec_time_word :
    (offersDerenc key8).key[0] ≠ (offersDerenc zeroKey).key[0]
    ∧ (nextInputs (offersDerenc key8)).rst = false
    ∧ succeeds (latch ⟨0x00000002#32, []⟩ (offersDerenc key8))
        = succeeds (latch ⟨0x00000002#32, []⟩ (offersDerenc zeroKey)) := by decide
theorem witness_exec_time_word_last : TakesLast (offersDerenc key8) ⟨0x00000002#32, []⟩ :=
  .inr ⟨rfl, rfl, rfl, rfl⟩
theorem witness_exec_time_word_step :
    (∃ t, step (offersDerenc key8) = .next t) ∧ ∃ t, step (offersDerenc zeroKey) = .next t :=
  ⟨⟨_, rfl⟩, ⟨_, rfl⟩⟩

/-- R88 at the ports: the word shown in RESP and the first of four bytes shown in OUT(4). -/
theorem test_outputs :
    (outputs { State.reset with phase := .resp, rw := 0x00000470#32 }).rsp = some 0x00000470#32
    ∧ (outputs { State.reset with phase := .out 4, rw := 0x00000470#32, result := [9, 8, 7, 6] }).out = some 9 := by
  decide

end Sys2Proof.Tests
end

section
/-! SUPPORT. Byte packing (00_scope.md R13), read off the concatenation of four bytes. -/

namespace Sys2Proof

/-- The bytes of a concatenation of four, by their position in the word. -/
theorem extractLsb'_append_four_bytes (a b c d : Byte) :
    (a ++ b ++ c ++ d).extractLsb' 24 8 = a ∧ (a ++ b ++ c ++ d).extractLsb' 16 8 = b
      ∧ (a ++ b ++ c ++ d).extractLsb' 8 8 = c ∧ (a ++ b ++ c ++ d).extractLsb' 0 8 = d := by
  refine ⟨?_, ?_, ?_, ?_⟩
  · rw [BitVec.extractLsb'_append_eq_of_le (by decide), BitVec.extractLsb'_append_eq_of_le (by decide),
      BitVec.extractLsb'_append_eq_left]
  · rw [BitVec.extractLsb'_append_eq_of_le (by decide), BitVec.extractLsb'_append_eq_of_le (by decide),
      BitVec.extractLsb'_append_eq_right]
  · rw [BitVec.extractLsb'_append_eq_of_le (by decide), BitVec.extractLsb'_append_eq_right]
  · exact BitVec.extractLsb'_append_eq_right

/-- `BE32(p, o)` is the concatenation of the four bytes from `o` on, where `p` has them. -/
theorem be32_eq_append {p : List Byte} {o : Nat} (h : o + 3 < p.length) :
    be32 p o = p[o] ++ p[o + 1] ++ p[o + 2] ++ p[o + 3] := by
  rw [be32, List.getD_eq_getElem, List.getD_eq_getElem, List.getD_eq_getElem, List.getD_eq_getElem]

/-- Reading back the four bytes of a word gives the word: the fields meet at bits 24, 16 and 8. -/
@[simp] theorem be32_bytesBE32 (w : Word) : be32 (bytesBE32 w) 0 = w := by
  rw [be32_eq_append (by simp)]
  have join (k n : Nat) : w.extractLsb' (k + 8) n ++ w.extractLsb' k 8 = w.extractLsb' k (n + 8) :=
    BitVec.extractLsb'_append_extractLsb'_eq_extractLsb' rfl
  calc w.extractLsb' 24 8 ++ w.extractLsb' 16 8 ++ w.extractLsb' 8 8 ++ w.extractLsb' 0 8
      = w.extractLsb' 16 16 ++ w.extractLsb' 8 8 ++ w.extractLsb' 0 8 := by rw [join 16 8]
    _ = w.extractLsb' 8 24 ++ w.extractLsb' 0 8 := by rw [join 8 16]
    _ = w.extractLsb' 0 32 := join 0 24
    _ = w := BitVec.extractLsb'_eq_self

/-- Settles O8: the layout is that of a concatenation of four bytes, and its inverse reads them back. -/
theorem bigEndianPacking : Obligations.BigEndianPacking := by
  refine ⟨fun p o h => ?_, fun w => rfl, be32_bytesBE32⟩
  rw [be32_eq_append h]
  exact extractLsb'_append_four_bytes ..

end Sys2Proof
end

section
/-! SUPPORT. The parameters (00_scope.md R9): the S-box is the only one a command reads (R239, R170),
and no step changes any of them (R27). -/

namespace Sys2Proof.Machine

/-! ## Replacing the parameters -/

/-- A state is its architectural part, its response and the fields no command writes. -/
theorem eq_of_archOf_responseOf_sameTransport {s t : State} (ha : archOf s = archOf t)
    (hr : responseOf s = responseOf t) (hs : SameTransport s t) : s = t := by
  cases s
  cases t
  simp_all [archOf, responseOf, SameTransport]

/-- Two states that agree but for the parameters still agree so after the same command, if
they have one S-box. -/
theorem exec_of_same_sbox (i : Instr) (s : State) (g : Config) (hg : g.sbox = s.cfg.sbox) :
    ∃ t : State, exec i s = .next t ∧ exec i { s with cfg := g } = .next { t with cfg := g } := by
  obtain ⟨t, u, ht, hu, ha, hr⟩ := exec_congr i (s := s) (t := { s with cfg := g }) rfl hg.symm
  have hst : SameTransport s t := exec_sameTransport ht
  have hsu : SameTransport { s with cfg := g } u := exec_sameTransport hu
  have htu : SameTransport { t with cfg := g } u := by
    simp_all [SameTransport]
  have : { t with cfg := g } = u := eq_of_archOf_responseOf_sameTransport ha hr htu
  exact ⟨t, ht, this ▸ hu⟩

/-- A word that no row matches is answered with IllegalCommand (R203). -/
theorem runLatched_of_lookup_none {s : State} (hl : lookup s.cw = none) :
    runLatched s = illegalCommand s.cw s := by
  rw [runLatched, (decode_illegal_iff _ _).mpr hl]

/-- A word of the row `op`, with LEN payload bytes, is run as the command assembled from it (R77). -/
theorem runLatched_of_lookup_some {s : State} {op : Op} (hl : lookup s.cw = some op)
    (hlen : s.payload.length = cwLen s.cw) :
    runLatched s = exec (assemble op s.cw s.payload) s := by
  rw [runLatched, (decode_ok_iff _ _ _).mpr ⟨op, hl, hlen, rfl⟩]

/-- `exec_of_same_sbox` for the command that stands latched, legal or not: IllegalCommand reads
no parameter at all. -/
theorem runLatched_of_same_sbox (s : State) (g : Config) (hlen : s.payload.length = cwLen s.cw)
    (hg : g.sbox = s.cfg.sbox) :
    ∃ t : State, runLatched s = .next t
      ∧ runLatched { s with cfg := g } = .next { t with cfg := g } := by
  cases hl : lookup s.cw with
  | none =>
    rw [runLatched_of_lookup_none hl, runLatched_of_lookup_none (s := { s with cfg := g }) hl]
    exact ⟨_, raise_eq .., raise_eq ..⟩
  | some op =>
    rw [runLatched_of_lookup_some hl hlen,
      runLatched_of_lookup_some (s := { s with cfg := g }) hl hlen]
    exact exec_of_same_sbox _ s g hg

/-- Settles O38: presenting the command commutes with replacing the parameters. -/
theorem onlySboxChangesResults : Obligations.OnlySboxChangesResults := by
  intro c s g hwf hg
  have hlen : c.payload.length = cwLen c.cw := by simpa [Command.wf] using hwf
  exact runLatched_of_same_sbox (latch c s) g hlen hg

/-! ## Steps keep the parameters -/

theorem awaitPayload_cfg (n : Nat) (s : State) : (awaitPayload n s).cfg = s.cfg := by
  unfold awaitPayload
  split <;> rfl

theorem awaitResult_cfg (n : Nat) (s : State) : (awaitResult n s).cfg = s.cfg := by
  unfold awaitResult
  split <;> rfl

/-- No phase change (R86) touches the parameters. -/
@[simp] theorem advance_cfg (pin : PortIn) (s : State) : (advance pin s).cfg = s.cfg := by
  cases hp : s.phase with
  | idle =>
    rw [advance_idle pin hp]
    cases pin.cmd with
    | none => rfl
    | some w => exact awaitPayload_cfg ..
  | payload n =>
    rw [advance_payload pin hp]
    cases pin.inb with
    | none => rfl
    | some b => exact awaitPayload_cfg ..
  | exec n => rw [advance_exec pin hp]
  | resp =>
    rw [advance_resp pin hp]
    split
    · exact awaitResult_cfg ..
    · rfl
  | out n =>
    rw [advance_out pin hp]
    split
    · exact awaitResult_cfg ..
    · rfl

/-- Settles O54: the reset edge, the phase change and the command that leaves EXEC each keep `cfg`. -/
theorem parametersNeverChange : Obligations.ParametersNeverChange := by
  intro s t h
  cases hr : (nextInputs s).rst with
  | true =>
    rw [step_rst hr] at h
    cases h
    simp
  | false =>
    obtain ⟨-, -, -, hsettle⟩ := step_next hr h
    obtain ⟨hcfg, -⟩ := settle_sameTransport hsettle
    simpa using hcfg

end Sys2Proof.Machine
end

section
/-! SUPPORT. The architectural state (10_state.md): the write table (R37), the valid bits (R22, R24),
what a reset gives (R34, R230). -/

namespace Sys2Proof.Machine

/-! ## The valid bits -/

/-- Marking entry `i` valid sets its bit and no other (R24, R113). -/
theorem getLsbD_markValid (i j : Fin 32) (sv : BitVec 32) :
    (markValid i sv).getLsbD j = (decide (j = i) || sv.getLsbD j) := by
  have h : 1#32 <<< i.val = BitVec.twoPow 32 i.val := rfl
  rw [markValid, h, BitVec.getLsbD_or, BitVec.getLsbD_twoPow, Bool.or_comm]
  simp [Fin.ext_iff, eq_comm]

/-! ## The arch view of the register updates -/

@[simp] theorem archOf_key (s : State) : (archOf s).key = s.key := rfl

@[simp] theorem archOf_kv (s : State) : (archOf s).kv = s.kv := rfl

@[simp] theorem archOf_sched (s : State) : (archOf s).sched = s.sched := rfl

@[simp] theorem archOf_sv (s : State) : (archOf s).sv = s.sv := rfl

@[simp] theorem archOf_last (s : State) : (archOf s).last = s.last := rfl

@[simp] theorem archOf_writeKey (k : KeyWords) (s : State) :
    archOf (writeKey k s) = { archOf s with key := k } := rfl

@[simp] theorem archOf_setKeyValid (s : State) :
    archOf (setKeyValid s) = { archOf s with kv := true } := rfl

@[simp] theorem archOf_writeSched (i : Fin 32) (w : Word) (s : State) :
    archOf (writeSched i w s)
      = { archOf s with sched := s.sched.set i w, sv := markValid i s.sv } := rfl

@[simp] theorem archOf_writeSchedAll (ws : Schedule) (s : State) :
    archOf (writeSchedAll ws s) = { archOf s with sched := ws, sv := BitVec.allOnes 32 } := rfl

/-! ## The write table (R37) -/

/-- What a command that succeeds makes of the architectural state: the rows of R37's table. -/
def archAfterSuccess (i : Instr) (a : Arch) : Arch :=
  match i with
  | .ldkey p => { a with key := keyWords p, kv := true, last := 0 }
  | .derenc => { a with sched := encSched a.key, sv := BitVec.allOnes 32, last := 0 }
  | .derdec => { a with sched := decSched a.key, sv := BitVec.allOnes 32, last := 0 }
  | .wrsched j w => { a with sched := a.sched.set j w, sv := markValid j a.sv, last := 0 }
  | .nop | .rdsched _ | .xform _ | .subst _ | .rotl11 _ => { a with last := 0 }
  | .rdstat => a

theorem archAfterSuccess_key_kv_of_ne {i : Instr} (hi : ∀ p, i ≠ .ldkey p) (a : Arch) :
    (archAfterSuccess i a).key = a.key ∧ (archAfterSuccess i a).kv = a.kv := by
  cases i with
  | ldkey p => exact absurd rfl (hi p)
  | _ => simp [archAfterSuccess]

theorem archAfterSuccess_sched_sv_of_ne {i : Instr} (he : i ≠ .derenc) (hd : i ≠ .derdec)
    (hw : ∀ j w, i ≠ .wrsched j w) (a : Arch) :
    (archAfterSuccess i a).sched = a.sched ∧ (archAfterSuccess i a).sv = a.sv := by
  cases i with
  | derenc => exact absurd rfl he
  | derdec => exact absurd rfl hd
  | wrsched j w => exact absurd rfl (hw j w)
  | _ => simp [archAfterSuccess]

theorem archAfterSuccess_last (i : Instr) (a : Arch) :
    (archAfterSuccess i a).last = if i = .rdstat then a.last else 0 := by
  cases i <;> simp [archAfterSuccess]

/-- The command `i` has led from `s` to `t` with code 0. -/
def Succeeded (i : Instr) (s t : State) : Prop :=
  rwCode t.rw = 0 ∧ archOf t = archAfterSuccess i (archOf s)

/-- A command has led from `s` to `t` with another code, which LAST has taken (R207). -/
def Failed (s t : State) : Prop :=
  rwCode t.rw ≠ 0 ∧ archOf t = { archOf s with last := rwCode t.rw }

theorem failed_of_raise {c : Code} {op : Nibble} {s t : State} (hc : c ≠ .ok)
    (h : raise c op s = .next t) : Failed s t := by
  cases h
  have hcode := rwCode_responseWord c op 0
  exact ⟨fun h0 => hc ((codeBits_eq_zero_iff c).mp (hcode.symm.trans h0)),
    congrArg (fun n => { archOf s with last := n }) hcode.symm⟩

theorem succeeded_of_finish {i : Instr} {op : Nibble} {r : List Byte} {s u t : State}
    (h : finish op r u = .next t)
    (hu : { archOf u with last := 0 } = archAfterSuccess i (archOf s)) : Succeeded i s t := by
  cases h
  exact ⟨rwCode_responseWord .., hu⟩

theorem deriveSched_derenc (k : KeyWords) :
    deriveSched k (Op.derenc.code.getLsbD 0) = encSched k :=
  if_neg (by decide)

theorem deriveSched_derdec (k : KeyWords) :
    deriveSched k (Op.derdec.code.getLsbD 0) = decSched k :=
  if_pos (by decide)

/-- What every command writes, said once: it follows its row of the write table, or it fails. -/
theorem exec_cases {i : Instr} {s t : State} (h : exec i s = .next t) :
    Succeeded i s t ∨ Failed s t := by
  cases i with
  | nop => exact .inl (succeeded_of_finish h rfl)
  | ldkey p =>
    simp only [exec, execLdkey] at h
    split at h
    · exact .inr (failed_of_raise (by decide) h)
    · exact .inl (succeeded_of_finish h rfl)
  | derenc =>
    simp only [exec, execDerenc, derive, deriveSched_derenc] at h
    split at h
    · exact .inr (failed_of_raise (by decide) h)
    · exact .inl (succeeded_of_finish h (by simp [archAfterSuccess]))
  | derdec =>
    simp only [exec, execDerdec, derive, deriveSched_derdec] at h
    split at h
    · exact .inr (failed_of_raise (by decide) h)
    · exact .inl (succeeded_of_finish h (by simp [archAfterSuccess]))
  | wrsched j w => exact .inl (succeeded_of_finish h rfl)
  | rdsched j =>
    simp only [exec, execRdsched] at h
    split at h
    · exact .inr (failed_of_raise (by decide) h)
    · exact .inl (succeeded_of_finish h rfl)
  | xform p =>
    simp only [exec, execXform] at h
    split at h
    · exact .inr (failed_of_raise (by decide) h)
    · split at h
      · exact .inr (failed_of_raise (by decide) h)
      · exact .inl (succeeded_of_finish h rfl)
  | subst w => exact .inl (succeeded_of_finish h rfl)
  | rotl11 w => exact .inl (succeeded_of_finish h rfl)
  | rdstat =>
    cases h
    exact .inl ⟨rwCode_responseWord .., rfl⟩

/-- `exec_cases` for the command that stands latched; IllegalCommand is one more failure (R203). -/
theorem runLatched_cases_of_next {s t : State} (h : runLatched s = .next t) :
    (∃ i, Succeeded i s t) ∨ Failed s t := by
  unfold runLatched at h
  split at h
  · exact (exec_cases h).imp_left fun hs => ⟨_, hs⟩
  · exact .inr (failed_of_raise (by decide) h)
  · cases h

/-- Settles O27: success is read off `archAfterSuccess`, failure off `Failed`. -/
theorem writeTable : Obligations.WriteTable := by
  constructor
  · intro i s t h hcode
    obtain ⟨-, harch⟩ | ⟨hne, -⟩ := exec_cases h
    case inr => exact absurd hcode hne
    have hkey : t.key = (archAfterSuccess i (archOf s)).key := congrArg Arch.key harch
    have hkv : t.kv = (archAfterSuccess i (archOf s)).kv := congrArg Arch.kv harch
    have hsched : t.sched = (archAfterSuccess i (archOf s)).sched := congrArg Arch.sched harch
    have hsv : t.sv = (archAfterSuccess i (archOf s)).sv := congrArg Arch.sv harch
    have hlast : t.last = (archAfterSuccess i (archOf s)).last := congrArg Arch.last harch
    refine ⟨?_, ?_, ?_, ?_, ?_, ?_, ?_, ?_, ?_⟩
    · intro hi
      rw [hkey, hkv]
      exact archAfterSuccess_key_kv_of_ne hi _
    · rintro p rfl
      simp [hkey, hkv, archAfterSuccess, keyWords]
    · intro he hd hw
      rw [hsched, hsv]
      exact archAfterSuccess_sched_sv_of_ne he hd hw _
    · rintro (rfl | rfl) <;> simp [hsv, archAfterSuccess]
    · rintro rfl
      simp [hsched, archAfterSuccess]
    · rintro rfl
      simp [hsched, archAfterSuccess]
    · rintro j w rfl
      simp only [schedValid, hsched, hsv, archAfterSuccess, archOf_sched, archOf_sv,
        getLsbD_markValid]
      refine ⟨by simp, by simp, fun k hk => ?_⟩
      have hjk : j.val ≠ k.val := fun e => hk (Fin.ext e.symm)
      simp [hk, hjk]
    · intro hi
      rw [hlast, archAfterSuccess_last, if_neg hi]
    · rintro rfl
      exact hlast
  · intro c s t h hcode
    obtain ⟨i, h0, -⟩ | ⟨-, ha⟩ := runLatched_cases_of_next h
    · exact absurd h0 hcode
    · exact ha

/-! ## Only reset clears a valid bit -/

/-- From `a` to `b` neither KV nor an SV bit is cleared. -/
def KeepsValid (a b : Arch) : Prop :=
  (a.kv = true → b.kv = true)
    ∧ ∀ i : Fin 32, a.sv.getLsbD i.val = true → b.sv.getLsbD i.val = true

theorem keepsValid_archAfterSuccess (i : Instr) (a : Arch) :
    KeepsValid a (archAfterSuccess i a) := by
  have hall (i : Fin 32) : (BitVec.allOnes 32).getLsbD i = true := by
    rw [BitVec.getLsbD_allOnes, decide_eq_true i.isLt]
  cases i with
  | ldkey p => exact ⟨fun _ => rfl, fun _ => id⟩
  | derenc | derdec =>
    rw [archAfterSuccess]
    exact ⟨id, fun i _ => hall i⟩
  | wrsched j w =>
    refine ⟨id, fun i hi => ?_⟩
    rw [archAfterSuccess, getLsbD_markValid, hi, Bool.or_true]
  | nop | rdsched _ | xform _ | subst _ | rotl11 _ | rdstat => exact ⟨id, fun _ => id⟩

theorem keepsValid_of_runLatched {s t : State} (h : runLatched s = .next t) :
    KeepsValid (archOf s) (archOf t) := by
  obtain ⟨i, -, ha⟩ | ⟨-, ha⟩ := runLatched_cases_of_next h
  · exact ha ▸ keepsValid_archAfterSuccess i (archOf s)
  · exact ha ▸ ⟨id, fun _ => id⟩

theorem archOf_awaitPayload (n : Nat) (s : State) : archOf (awaitPayload n s) = archOf s := by
  unfold awaitPayload
  split <;> rfl

theorem archOf_awaitResult (n : Nat) (s : State) : archOf (awaitResult n s) = archOf s := by
  unfold awaitResult
  split <;> rfl

/-- No phase change (R86) touches the architectural state: commands write at the edge that leaves
EXEC (R88). -/
@[simp] theorem archOf_advance (pin : PortIn) (s : State) : archOf (advance pin s) = archOf s := by
  cases hp : s.phase with
  | idle =>
    rw [advance_idle pin hp]
    cases pin.cmd with
    | none => rfl
    | some w => exact archOf_awaitPayload ..
  | payload n =>
    rw [advance_payload pin hp]
    cases pin.inb with
    | none => rfl
    | some b => exact archOf_awaitPayload ..
  | exec n =>
    rw [advance_exec pin hp]
    rfl
  | resp =>
    rw [advance_resp pin hp]
    split
    · exact archOf_awaitResult ..
    · rfl
  | out n =>
    rw [advance_out pin hp]
    split
    · exact archOf_awaitResult ..
    · rfl

/-- The architectural state changes in a step without rst only by the command that leaves EXEC. -/
theorem keepsValid_of_step {s t : State} (hr : (nextInputs s).rst = false)
    (h : step s = .next t) : KeepsValid (archOf s) (archOf t) := by
  obtain ⟨-, -, -, hsettle⟩ := step_next hr h
  obtain ⟨-, rfl⟩ | ⟨-, u, hrun, rfl⟩ := settle_next hsettle
  · simp [KeepsValid]
  · have := keepsValid_of_runLatched hrun
    rwa [archOf_advance, archOf_noteOffers, archOf_dropEdge] at this

/-- Settles O55: the write table clears no valid bit, and nothing else in such a step writes one. -/
theorem onlyResetClearsValidBits : Obligations.OnlyResetClearsValidBits :=
  fun _ _ hr h => keepsValid_of_step hr h

/-! ## Reset -/

/-- Settles O45: such an edge gives `resetEdge`, whatever the phase. -/
theorem resetEdgeGivesTheResetState : Obligations.ResetEdgeGivesTheResetState := by
  intro s hr
  refine ⟨_, step_rst hr, ?_⟩
  simp [outputs]

/-- Settles O46: the values of `State.reset`. -/
theorem resetStateValues : Obligations.ResetStateValues := by
  simp [Obligations.ResetStateValues, State.reset]

end Sys2Proof.Machine
end

section
/-! SUPPORT. What a command can read of KEY and SCHED (10_state.md R35, R38): nothing that was not
written before, and the whole key once it is loaded. -/

namespace Sys2Proof.Machine

/-! ## States that agree on what may be read -/

theorem SameReadable.svAll_eq {s t : State} (h : SameReadable s t) : svAll s = svAll t := by
  obtain ⟨-, -, hsv, -, -, -⟩ := h
  rw [svAll, svAll, hsv]

theorem SameReadable.schedValid_eq {s t : State} (h : SameReadable s t) (i : Fin 32) :
    schedValid s i = schedValid t i := by
  obtain ⟨-, -, hsv, -, -, -⟩ := h
  rw [schedValid, schedValid, hsv]

/-- With every entry valid the whole schedule may be read. -/
theorem SameReadable.sched_eq {s t : State} (h : SameReadable s t)
    (hv : svAll s = true) : s.sched = t.sched := by
  obtain ⟨-, -, -, -, -, hsched⟩ := h
  refine Vector.ext fun i hi => ?_
  exact hsched ⟨i, hi⟩ ((svAll_iff s).mp hv ⟨i, hi⟩)

theorem SameReadable.after_latch {s t : State} (h : SameReadable s t) (c : Command) :
    SameReadable (latch c s) (latch c t) := h

/-- Loading the key leaves nothing of the old one to be read. -/
theorem SameReadable.after_loadKey {s t : State} (h : SameReadable s t) (k : KeyWords) :
    SameReadable (setKeyValid (writeKey k s)) (setKeyValid (writeKey k t)) := by
  obtain ⟨hcfg, -, hsv, hlast, -, hsched⟩ := h
  exact ⟨hcfg, rfl, hsv, hlast, fun _ => rfl, hsched⟩

/-- An entry becomes readable only with the word that is written to it. -/
theorem SameReadable.after_writeSched {s t : State} (h : SameReadable s t) (i : Fin 32) (w : Word) :
    SameReadable (writeSched i w s) (writeSched i w t) := by
  obtain ⟨hcfg, hkv, hsv, hlast, hkey, hsched⟩ := h
  refine ⟨hcfg, hkv, congrArg (markValid i) hsv, hlast, hkey, fun j hj => ?_⟩
  by_cases hji : j = i
  · simp [readSched, hji]
  · have hij : i.val ≠ j.val := fun e => hji (Fin.ext e.symm)
    have hold : s.sched[j.val] = t.sched[j.val] :=
      hsched j (by simpa only [schedValid, writeSched_sv, getLsbD_markValid, hji,
        decide_false, Bool.false_or] using hj)
    simp [readSched, hij, hold]

theorem SameReadable.after_writeSchedAll {s t : State} (h : SameReadable s t) (ws : Schedule) :
    SameReadable (writeSchedAll ws s) (writeSchedAll ws t) := by
  obtain ⟨hcfg, hkv, -, hlast, hkey, -⟩ := h
  exact ⟨hcfg, hkv, rfl, hlast, hkey, fun _ _ => rfl⟩

/-! ## Answers that agree -/

/-- Two answers are next states with one response that agree on what may be read. -/
def AnswersAgree (x y : Result) : Prop :=
  ∃ s' t' : State, x = .next s' ∧ y = .next t'
    ∧ responseOf s' = responseOf t' ∧ SameReadable s' t'

theorem SameReadable.finish_agrees {s t : State} (h : SameReadable s t) (op : Nibble)
    (r : List Byte) : AnswersAgree (finish op r s) (finish op r t) := by
  obtain ⟨hcfg, hkv, hsv, -, hkey, hsched⟩ := h
  exact ⟨_, _, rfl, rfl, rfl, hcfg, hkv, hsv, rfl, hkey, hsched⟩

theorem SameReadable.raise_agrees {s t : State} (h : SameReadable s t) (c : Code) (op : Nibble) :
    AnswersAgree (raise c op s) (raise c op t) := by
  obtain ⟨hcfg, hkv, hsv, -, hkey, hsched⟩ := h
  exact ⟨_, _, rfl, rfl, rfl, hcfg, hkv, hsv, rfl, hkey, hsched⟩

/-- A derive command reads KEY, but checks KV first (R106, R111). -/
theorem SameReadable.derive_agrees {s t : State} (h : SameReadable s t) (op : Op) :
    AnswersAgree (derive op s) (derive op t) := by
  have ⟨_, hkv, _, _, hkey, _⟩ := h
  cases hs : s.kv with
  | false =>
    have ht : t.kv = false := hkv ▸ hs
    simpa [derive, hs, ht] using h.raise_agrees .noKey op.code
  | true =>
    have ht : t.kv = true := hkv ▸ hs
    simpa [derive, hs, ht, hkey hs] using (h.after_writeSchedAll _).finish_agrees op.code []

/-- R35 for a decoded command: KEY is read after the check of KV, `SCHED[i]` after that of
`SV[i]`. -/
theorem SameReadable.exec_agrees {s t : State} (h : SameReadable s t) (i : Instr) :
    AnswersAgree (exec i s) (exec i t) := by
  have ⟨hsbox, hkv, hsv, hlast, _, hsched⟩ := h
  cases i with
  | nop => exact h.finish_agrees ..
  | ldkey p =>
    simp only [exec, execLdkey]
    split
    · exact h.raise_agrees ..
    · exact (h.after_loadKey _).finish_agrees ..
  | derenc => exact h.derive_agrees .derenc
  | derdec => exact h.derive_agrees .derdec
  | wrsched j w => exact (h.after_writeSched j w).finish_agrees ..
  | rdsched j =>
    simp only [exec, execRdsched, ← h.schedValid_eq j]
    split
    · exact h.raise_agrees ..
    · next hv =>
      rw [← hsched j (by simpa using hv)]
      exact h.finish_agrees ..
  | xform p =>
    simp only [exec, execXform, ← h.svAll_eq]
    split
    · exact h.raise_agrees ..
    split
    · exact h.raise_agrees ..
    · next hv =>
      rw [← h.sched_eq (by simpa using hv), ← hsbox]
      exact h.finish_agrees ..
  | subst w =>
    simp only [exec, execSubst, ← hsbox]
    exact h.finish_agrees ..
  | rotl11 w => exact h.finish_agrees ..
  | rdstat =>
    have hstatus : statusWord s = statusWord t := by
      rw [statusWord, statusWord, hlast, h.svAll_eq, hkv]
    have hmask : svMask s = svMask t := hsv
    simp only [exec, execRdstat, hstatus, hmask]
    exact ⟨_, _, rfl, rfl, rfl, h⟩

/-- R35 for a command word with its payload, legal or not. -/
theorem SameReadable.transact_agrees {s t : State} (h : SameReadable s t) {c : Command}
    (hwf : c.wf = true) : AnswersAgree (transact c s) (transact c t) := by
  have hlen : c.payload.length = cwLen c.cw := by simpa [Command.wf] using hwf
  have hc := h.after_latch c
  unfold transact
  cases hl : lookup c.cw with
  | none =>
    rw [runLatched_of_lookup_none (s := latch c s) hl,
      runLatched_of_lookup_none (s := latch c t) hl]
    exact hc.raise_agrees ..
  | some op =>
    rw [runLatched_of_lookup_some (s := latch c s) hl hlen,
      runLatched_of_lookup_some (s := latch c t) hl hlen]
    exact hc.exec_agrees _

/-- Settles O32: `SameReadable.transact_agrees`. -/
theorem commandsReadOnlyWrittenRegisters : Obligations.CommandsReadOnlyWrittenRegisters :=
  fun _ _ _ hwf h => h.transact_agrees hwf

/-! ## Programs -/

theorem runProgram_cons {c : Command} {cs : List Command} {s t u : State} {rs : List Response}
    (hc : transact c s = .next t) (hcs : runProgram cs t = .next (u, rs)) :
    runProgram (c :: cs) s = .next (u, responseOf t :: rs) := by
  simp only [runProgram, hc, hcs]

/-- `SameReadable.transact_agrees` along a program (R54). -/
theorem SameReadable.runProgram_agrees {s t : State} (h : SameReadable s t) {cs : List Command}
    (hwf : ∀ c ∈ cs, c.wf = true) :
    ∃ (s' t' : State) (rs : List Response), runProgram cs s = .next (s', rs)
      ∧ runProgram cs t = .next (t', rs) ∧ SameReadable s' t' := by
  induction cs generalizing s t with
  | nil => exact ⟨s, t, [], rfl, rfl, h⟩
  | cons c cs ih =>
    obtain ⟨hc, hcs⟩ := List.forall_mem_cons.mp hwf
    obtain ⟨s1, t1, hs1, ht1, hresp, h1⟩ := h.transact_agrees hc
    obtain ⟨s2, t2, rs, hs2, ht2, h2⟩ := ih h1 hcs
    exact ⟨s2, t2, responseOf s1 :: rs, runProgram_cons hs1 hs2,
      hresp ▸ runProgram_cons ht1 ht2, h2⟩

/-- After reset nothing of KEY and SCHED may be read. -/
theorem sameReadable_of_afterReset {s t : State} (hs : AfterReset s) (ht : AfterReset t)
    (hsbox : s.cfg.sbox = t.cfg.sbox) : SameReadable s t := by
  obtain ⟨hskv, hssv, hslast⟩ := hs
  obtain ⟨htkv, htsv, htlast⟩ := ht
  simp [SameReadable, schedValid, *]

/-- Settles O33: states after reset agree on what may be read, and a program keeps that. -/
theorem resetContentsAreUnobservable : Obligations.ResetContentsAreUnobservable := by
  intro cs s t hwf hs ht hsbox
  obtain ⟨s', t', rs, hs', ht', -, hkv, hsv, hlast, -, -⟩ :=
    (sameReadable_of_afterReset hs ht hsbox).runProgram_agrees hwf
  exact ⟨s', t', rs, hs', ht', hkv, hsv, hlast⟩

/-! ## The key, read back through the schedule (R38) -/

/-- The four bytes of a word read from a payload are the payload's bytes (R13). -/
theorem bytesBE32_be32 {p : List Byte} {o : Nat} (h : o + 3 < p.length) :
    bytesBE32 (be32 p o) = (p.drop o).take 4 := by
  rw [be32_eq_append h, bytesBE32]
  obtain ⟨h0, h1, h2, h3⟩ := extractLsb'_append_four_bytes p[o] p[o + 1] p[o + 2] p[o + 3]
  rw [h0, h1, h2, h3]
  rw [List.drop_eq_getElem_cons (by omega), List.drop_eq_getElem_cons (by omega),
    List.drop_eq_getElem_cons (by omega), List.drop_eq_getElem_cons h]
  rfl

/-- An encoded command that decodes to `i` is run as `i`. -/
theorem transact_encode {i : Instr} (hd : decode (encode i).cw (encode i).payload = .ok i)
    (s : State) : transact (encode i) s = exec i (latch (encode i) s) := by
  rw [transact, runLatched, latch_cw, latch_payload, hd]

theorem decode_encode_ldkey {p : List Byte} (h : p.length = 32) :
    decode (encode (.ldkey p)).cw (encode (.ldkey p)).payload = .ok (.ldkey p) := by
  have hcw : (encode (.ldkey p)).cw = 0x00200001#32 := by
    simp [encode, Instr.payload, h, Instr.op, Op.code, Instr.idx]
  rw [hcw, decode_ok_iff]
  exact ⟨.ldkey, by decide, h, rfl⟩

theorem decode_encode_rdsched (i : Fin 32) :
    decode (encode (.rdsched i)).cw (encode (.rdsched i)).payload = .ok (.rdsched i) := by
  revert i
  decide

/-- LDKEY with 32 bytes, presented: the key is loaded (R101). -/
theorem transact_ldkey {p : List Byte} (hp : p.length = 32) (s : State) :
    ∃ t : State, transact (encode (.ldkey p)) s = .next t
      ∧ t.key = keyWords p ∧ t.kv = true ∧ responseOf t = ⟨0x00000010#32, []⟩ := by
  rw [transact_encode (decode_encode_ldkey hp), exec, execLdkey, if_neg (not_not_intro hp)]
  exact ⟨_, rfl, rfl, rfl, congrArg (Response.mk · []) responseWord_ldkey⟩

/-- DERENC with a key, presented: the encryption schedule is derived (R106). -/
theorem transact_derenc {s : State} (hkv : s.kv = true) :
    ∃ t : State, transact (encode .derenc) s = .next t
      ∧ t.sched = encSched s.key ∧ t.sv = BitVec.allOnes 32
      ∧ responseOf t = ⟨0x00000020#32, []⟩ := by
  rw [transact_encode (by decide), exec, execDerenc, derive, latch_kv, latch_key,
    if_neg (ne_false_of_eq_true hkv), deriveSched_derenc]
  exact ⟨_, rfl, rfl, rfl, congrArg (Response.mk · []) responseWord_derenc⟩

/-- RDSCHED of a valid entry, presented: the entry is answered (R114). -/
theorem transact_rdsched {s : State} {i : Fin 32} (hv : schedValid s i = true) :
    ∃ t : State, transact (encode (.rdsched i)) s = .next t
      ∧ responseOf t = ⟨0x00000450#32, bytesBE32 s.sched[i]⟩ := by
  have hlatched : schedValid (latch (encode (.rdsched i)) s) i = true := hv
  rw [transact_encode (decode_encode_rdsched i), exec, execRdsched,
    if_neg (ne_false_of_eq_true hlatched)]
  exact ⟨_, rfl, congrArg (Response.mk · _) responseWord_rdsched⟩

theorem encSched_getElem_of_lt_eight (k : KeyWords) {j : Nat} (h : j < 8) :
    (encSched k)[j] = k[j] := by
  have h24 : j < 24 := by omega
  simp [encSched, h24, Nat.mod_eq_of_lt h]

/-- Settles O34: entry j of the encryption schedule is key word j (R105), and its bytes are the
key's. -/
theorem keyIsObservableThroughTheSchedule : Obligations.KeyIsObservableThroughTheSchedule := by
  intro p s j hj hp
  have hbytes : bytesBE32 (encSched (keyWords p))[j] = (p.drop (4 * j)).take 4 := by
    rw [encSched_getElem_of_lt_eight _ hj, ← bytesBE32_be32 (by omega)]
    simp [keyWords]
  obtain ⟨s1, h1, hkey, hkv, hr1⟩ := transact_ldkey hp s
  obtain ⟨s2, h2, hsched, hsv, hr2⟩ := transact_derenc hkv
  have hvalid : schedValid s2 ⟨j, by omega⟩ = true := by
    rw [schedValid, hsv, BitVec.getLsbD_allOnes, decide_eq_true (by omega : j < 32)]
  obtain ⟨s3, h3, hr3⟩ := transact_rdsched hvalid
  have hres : responseOf s3 = ⟨0x00000450#32, (p.drop (4 * j)).take 4⟩ := by
    rw [hr3, ← hbytes, hsched, hkey]
    rfl
  refine ⟨s3, ?_⟩
  rw [← hr1, ← hr2, ← hres]
  exact runProgram_cons h1 (runProgram_cons h2 (runProgram_cons h3 rfl))

end Sys2Proof.Machine
end

section
/-! SUPPORT. The transport invariant (30_encoding.md R86 to R88, 60_exceptions.md R200, R206): every
part of an edge, the phase change and the settling of EXEC, keeps it. -/

namespace Sys2Proof.Machine

/-! ## The response of a command -/

/-- A response word made for OP, with a result of a length that commands give. -/
theorem responseInv_of_rw {t : State} {c : Code}
    (hrw : t.rw = responseWord c (cwOp t.cw) t.result.length)
    (hlen : t.result.length = 0 ∨ t.result.length = 4 ∨ t.result.length = 8) : ResponseInv t := by
  refine ⟨?_, ?_, ?_, hlen, ?_⟩
  · rw [hrw, rwRes_responseWord]
  · rw [hrw, rwOpe_responseWord]
  · rw [hrw, rwRlen_responseWord _ _ _ (by omega)]
  · rw [hrw, rwCode_responseWord]
    exact codeBits_le c

/-- A command of CW's row answers with a response word for CW's OP (R78, R79). -/
theorem responseInv_of_exec {i : Instr} {s t : State} (hop : i.op.code = cwOp s.cw)
    (h : exec i s = .next t) : ResponseInv t := by
  obtain ⟨k, kv, ws, sv, c, r, he, -, hr⟩ := exec_form i s
  rw [he] at h
  cases h
  exact responseInv_of_rw (congrArg (responseWord c · r.length) hop) hr

theorem responseInv_of_runLatched {s t : State} (hlen : s.payload.length = cwLen s.cw)
    (h : runLatched s = .next t) : ResponseInv t := by
  obtain ⟨-, hrun⟩ | ⟨op, hl, hrun⟩ := runLatched_cases s hlen
  · rw [hrun, illegalCommand, raise_eq] at h
    cases h
    exact responseInv_of_rw rfl (.inl rfl)
  · rw [hrun] at h
    exact responseInv_of_exec (by rw [op_assemble, op_code_of_lookup hl]) h

/-- LAST takes 0 or the code of the response, or is left alone (R26, R207). -/
theorem last_le_of_runLatched {s t : State} (hlen : s.payload.length = cwLen s.cw)
    (hlast : s.last.toNat ≤ 5) (h : runLatched s = .next t) : t.last.toNat ≤ 5 := by
  rw [← archOf_last t]
  obtain ⟨i, -, ha⟩ | ⟨-, ha⟩ := runLatched_cases_of_next h
  · rw [ha, archAfterSuccess_last]
    split
    · exact hlast
    · decide
  · obtain ⟨-, -, -, -, hcode⟩ := responseInv_of_runLatched hlen h
    rw [ha]
    exact hcode

/-! ## The phase change -/

/-- What holds between the phase change of an edge and the settling of EXEC: `PhaseInv`, or EXEC has
no cycle left and the command is fully taken. -/
def SettlingInv (s : State) : Prop :=
  PhaseInv s ∨ s.phase = .exec 0 ∧ s.payload.length = cwLen s.cw

theorem phaseInv_idle {s : State} (hp : s.phase = .idle) : PhaseInv s := by
  simp [PhaseInv, hp]

theorem phaseInv_payload {s : State} {n : Nat} (hp : s.phase = .payload n) :
    PhaseInv s ↔ 0 < n ∧ s.payload.length + n = cwLen s.cw := by
  simp [PhaseInv, hp]

theorem phaseInv_exec {s : State} {n : Nat} (hp : s.phase = .exec n) :
    PhaseInv s ↔ 0 < n ∧ s.payload.length = cwLen s.cw := by
  simp [PhaseInv, hp]

theorem phaseInv_resp {s : State} (hp : s.phase = .resp) :
    PhaseInv s ↔ s.payload.length = cwLen s.cw ∧ ResponseInv s := by
  simp [PhaseInv, hp]

theorem phaseInv_out {s : State} {n : Nat} (hp : s.phase = .out n) :
    PhaseInv s ↔ s.payload.length = cwLen s.cw ∧ ResponseInv s ∧ 0 < n ∧ n ≤ s.result.length
      ∧ s.sent = s.result.take (s.result.length - n) := by
  simp [PhaseInv, hp]

theorem phaseInv_dropEdge (s : State) : PhaseInv (dropEdge s) ↔ PhaseInv s := Iff.rfl

theorem phaseInv_noteOffers (pin : PortIn) (s : State) :
    PhaseInv (noteOffers pin s) ↔ PhaseInv s := Iff.rfl

/-- EXEC with any number of cycles left, once the command is fully taken. -/
theorem settlingInv_exec {s : State} {n : Nat} (hp : s.phase = .exec n)
    (hlen : s.payload.length = cwLen s.cw) : SettlingInv s := by
  cases n with
  | zero => exact .inr ⟨hp, hlen⟩
  | succ n => exact .inl ((phaseInv_exec hp).mpr ⟨n.succ_pos, hlen⟩)

/-- With `n` payload bytes missing CORE waits for them, or enters EXEC (R86). -/
theorem settlingInv_awaitPayload {n : Nat} {s : State} (h : s.payload.length + n = cwLen s.cw) :
    SettlingInv (awaitPayload n s) := by
  unfold awaitPayload
  split
  · next hn => exact settlingInv_exec (enterExec_phase s) (by simpa [hn] using h)
  · next hn => exact .inl ((phaseInv_payload rfl).mpr ⟨by omega, h⟩)

/-- With the last `n` result bytes left CORE sends them, or is in IDLE again (R86, R210). -/
theorem phaseInv_awaitResult {n : Nat} {s : State} (hlen : s.payload.length = cwLen s.cw)
    (hresp : ResponseInv s) (hn : n ≤ s.result.length)
    (hsent : s.sent = s.result.take (s.result.length - n)) : PhaseInv (awaitResult n s) := by
  unfold awaitResult
  split
  · exact phaseInv_idle (complete_phase s)
  · next h0 => exact (phaseInv_out rfl).mpr ⟨hlen, hresp, by omega, hn, hsent⟩

/-- The byte of OUT(n) goes behind the bytes already sent (R87, R88). -/
theorem take_append_outByte {n : Nat} {s : State} (hrlen : rwRlen s.rw = s.result.length)
    (h0 : 0 < n) (hn : n ≤ s.result.length) :
    s.result.take (s.result.length - n) ++ (outByte n s).toList
      = s.result.take (s.result.length - (n - 1)) := by
  have hk : s.result.length - (n - 1) = s.result.length - n + 1 := by omega
  rw [outByte, hrlen, hk, List.take_add_one]

theorem settlingInv_takeCommand (w : Word) (s : State) : SettlingInv (takeCommand w s) :=
  settlingInv_awaitPayload (Nat.zero_add _)

theorem settlingInv_takeByte {n : Nat} {s : State} (b : Byte) (h0 : 0 < n)
    (hlen : s.payload.length + n = cwLen s.cw) : SettlingInv (takeByte n b s) := by
  refine settlingInv_awaitPayload ?_
  rw [List.length_append, List.length_singleton, Nat.add_assoc, Nat.add_sub_of_le h0]
  exact hlen

theorem phaseInv_giveResponse {s : State} (hlen : s.payload.length = cwLen s.cw)
    (hresp : ResponseInv s) : PhaseInv (giveResponse s) := by
  have ⟨_, _, hrlen, _, _⟩ := hresp
  exact phaseInv_awaitResult hlen hresp hrlen.le (by simp [hrlen])

theorem phaseInv_giveByte {n : Nat} {s : State} (hlen : s.payload.length = cwLen s.cw)
    (hresp : ResponseInv s) (h0 : 0 < n) (hn : n ≤ s.result.length)
    (hsent : s.sent = s.result.take (s.result.length - n)) : PhaseInv (giveByte n s) := by
  have ⟨_, _, hrlen, _, _⟩ := hresp
  exact phaseInv_awaitResult hlen hresp (by simp; omega)
    (by rw [hsent]; exact take_append_outByte hrlen h0 hn)

/-- The phase change of R86 from every phase: transfers count bytes, and EXEC counts its cycles. -/
theorem settlingInv_advance (pin : PortIn) {s : State} (h : PhaseInv s) :
    SettlingInv (advance pin s) := by
  cases hp : s.phase with
  | idle =>
    rw [advance_idle pin hp]
    cases pin.cmd with
    | none => exact .inl h
    | some w => exact settlingInv_takeCommand w s
  | payload n =>
    obtain ⟨h0, hlen⟩ := (phaseInv_payload hp).mp h
    rw [advance_payload pin hp]
    cases pin.inb with
    | none => exact .inl h
    | some b => exact settlingInv_takeByte b h0 hlen
  | exec n =>
    obtain ⟨-, hlen⟩ := (phaseInv_exec hp).mp h
    rw [advance_exec pin hp]
    exact settlingInv_exec rfl hlen
  | resp =>
    obtain ⟨hlen, hresp⟩ := (phaseInv_resp hp).mp h
    rw [advance_resp pin hp]
    split
    · exact .inl (phaseInv_giveResponse hlen hresp)
    · exact .inl h
  | out n =>
    obtain ⟨hlen, hresp, h0, hn, hsent⟩ := (phaseInv_out hp).mp h
    rw [advance_out pin hp]
    split
    · exact .inl (phaseInv_giveByte hlen hresp h0 hn hsent)
    · exact .inl h

/-! ## The edge -/

/-- Settling runs the command that has no EXEC cycle left, and shows its response (R88). -/
theorem transportInv_settle {s t : State} (hinv : SettlingInv s) (hlast : s.last.toNat ≤ 5)
    (h : settle s = .next t) : TransportInv t := by
  obtain ⟨hp, rfl⟩ | ⟨hp, u, hrun, rfl⟩ := settle_next h
  · exact ⟨hinv.resolve_right fun ⟨h0, _⟩ => hp h0, hlast⟩
  · have hlen : s.payload.length = cwLen s.cw := by
      obtain hphase | ⟨-, hlen⟩ := hinv
      · obtain ⟨-, hlen⟩ := (phaseInv_exec hp).mp hphase
        exact hlen
      · exact hlen
    obtain ⟨-, -, -, hcw, hpayload, -⟩ := runLatched_sameTransport hrun
    have hresp : ResponseInv u := responseInv_of_runLatched hlen hrun
    have hlast : u.last.toNat ≤ 5 := last_le_of_runLatched hlen hlast hrun
    exact ⟨(phaseInv_resp rfl).mpr ⟨by rw [hcw, hpayload, hlen], hresp⟩, hlast⟩

theorem transportInv_resetEdge (s : State) : TransportInv (resetEdge s) :=
  ⟨phaseInv_idle (resetEdge_phase s), by simp⟩

/-- Settles O49: a reset edge gives IDLE; any other edge is a phase change and then a settling. -/
theorem everyStepKeepsTheTransportInvariant : Obligations.EveryStepKeepsTheTransportInvariant := by
  intro s t ⟨hphase, hlast⟩ h
  cases hr : (nextInputs s).rst with
  | true =>
    rw [step_rst hr] at h
    cases h
    exact transportInv_resetEdge _
  | false =>
    obtain ⟨-, -, -, hsettle⟩ := step_next hr h
    have hnoted : PhaseInv (noteOffers (nextInputs s) (dropEdge s)) :=
      (phaseInv_noteOffers _ _).mpr ((phaseInv_dropEdge s).mpr hphase)
    refine transportInv_settle (settlingInv_advance _ hnoted) ?_ hsettle
    rwa [← archOf_last, archOf_advance]

end Sys2Proof.Machine
end

section
/-! SUPPORT. Repeating a command (20_memory.md R57): what a command writes it writes again, and the
check it has passed or failed it passes or fails again. -/

namespace Sys2Proof.Machine

/-! ## Register writes, made twice -/

theorem markValid_markValid (i : Fin 32) (sv : BitVec 32) :
    markValid i (markValid i sv) = markValid i sv := by
  simp [markValid, BitVec.or_assoc]

theorem writeSched_writeSched (i : Fin 32) (w : Word) (s : State) :
    writeSched i w (writeSched i w s) = writeSched i w s := by
  simp [writeSched, markValid_markValid]

/-! ## Endings, made twice -/

/-- The register write `f` touches neither LAST nor the response, and made twice it is made once. -/
def RepeatableWrite (f : State → State) : Prop :=
  (∀ c op r s, f (respond c op r (setLast c s)) = respond c op r (setLast c (f s)))
    ∧ ∀ s, f (f s) = f s

theorem RepeatableWrite.finish_repeats {f : State → State} (hf : RepeatableWrite f) {op : Nibble}
    {r : List Byte} {s t : State} (h : finish op r (f s) = .next t) :
    finish op r (f t) = .next t := by
  obtain ⟨hcomm, htwice⟩ := hf
  cases h
  rw [hcomm, htwice]
  rfl

theorem finish_repeats {op : Nibble} {r : List Byte} {s t : State} (h : finish op r s = .next t) :
    finish op r t = .next t := by
  cases h
  rfl

theorem raise_repeats {c : Code} {op : Nibble} {s t : State} (h : raise c op s = .next t) :
    raise c op t = .next t := by
  cases h
  rfl

theorem repeatableWrite_loadKey (k : KeyWords) :
    RepeatableWrite fun s => setKeyValid (writeKey k s) :=
  ⟨fun _ _ _ _ => rfl, fun _ => rfl⟩

theorem repeatableWrite_writeSchedAll (ws : Schedule) : RepeatableWrite (writeSchedAll ws) :=
  ⟨fun _ _ _ _ => rfl, fun _ => rfl⟩

theorem repeatableWrite_writeSched (i : Fin 32) (w : Word) : RepeatableWrite (writeSched i w) :=
  ⟨fun _ _ _ _ => rfl, writeSched_writeSched i w⟩

/-! ## Commands, made twice -/

/-- Only LDKEY writes KEY and KV (R37), whether the command succeeds or fails. -/
theorem exec_keeps_key_kv {i : Instr} (hi : ∀ p, i ≠ .ldkey p) {s t : State}
    (h : exec i s = .next t) : t.key = s.key ∧ t.kv = s.kv := by
  rw [← archOf_key t, ← archOf_kv t]
  obtain ⟨-, ha⟩ | ⟨-, ha⟩ := exec_cases h
  · rw [ha]
    exact archAfterSuccess_key_kv_of_ne hi _
  · rw [ha]
    exact ⟨rfl, rfl⟩

/-- Only DERENC, DERDEC and WRSCHED write SCHED and SV (R37). -/
theorem exec_keeps_sched_sv {i : Instr} (he : i ≠ .derenc) (hd : i ≠ .derdec)
    (hw : ∀ j w, i ≠ .wrsched j w) {s t : State} (h : exec i s = .next t) :
    t.sched = s.sched ∧ t.sv = s.sv := by
  rw [← archOf_sched t, ← archOf_sv t]
  obtain ⟨-, ha⟩ | ⟨-, ha⟩ := exec_cases h
  · rw [ha]
    exact archAfterSuccess_sched_sv_of_ne he hd hw _
  · rw [ha]
    exact ⟨rfl, rfl⟩

theorem derive_repeats {op : Op} {s t : State} (hkv : t.kv = s.kv) (hkey : t.key = s.key)
    (h : derive op s = .next t) : derive op t = .next t := by
  unfold derive at h ⊢
  rw [hkv, hkey]
  split at h
  · rw [if_pos ‹_›]
    exact raise_repeats h
  · rw [if_neg ‹_›]
    exact (repeatableWrite_writeSchedAll _).finish_repeats h

theorem execLdkey_repeats {p : List Byte} {s t : State} (h : execLdkey p s = .next t) :
    execLdkey p t = .next t := by
  unfold execLdkey at h ⊢
  split_ifs at h ⊢
  · exact raise_repeats h
  · exact (repeatableWrite_loadKey _).finish_repeats h

theorem execRdsched_repeats {i : Fin 32} {s t : State} (hsched : t.sched = s.sched)
    (hsv : t.sv = s.sv) (h : execRdsched i s = .next t) : execRdsched i t = .next t := by
  unfold execRdsched schedValid readSched at h ⊢
  rw [hsv, hsched]
  split_ifs at h ⊢
  · exact raise_repeats h
  · exact finish_repeats h

theorem execXform_repeats {p : List Byte} {s t : State} (hcfg : t.cfg = s.cfg)
    (hsched : t.sched = s.sched) (hsv : t.sv = s.sv) (h : execXform p s = .next t) :
    execXform p t = .next t := by
  unfold execXform svAll at h ⊢
  rw [hsv, hsched, hcfg]
  split_ifs at h ⊢
  · exact raise_repeats h
  · exact raise_repeats h
  · exact finish_repeats h

/-- Settles O31: what a command reads to decide and to answer, it does not itself write, and what
it writes can be written twice. -/
theorem repeatingACommandChangesNothing : Obligations.RepeatingACommandChangesNothing := by
  intro i s t h
  obtain ⟨hcfg, -⟩ := exec_sameTransport h
  cases i with
  | nop => exact finish_repeats h
  | ldkey p => exact execLdkey_repeats h
  | derenc | derdec =>
    obtain ⟨hkey, hkv⟩ := exec_keeps_key_kv (by simp) h
    exact derive_repeats hkv hkey h
  | wrsched j w => exact (repeatableWrite_writeSched j w).finish_repeats h
  | rdsched j =>
    obtain ⟨hsched, hsv⟩ := exec_keeps_sched_sv (by simp) (by simp) (by simp) h
    exact execRdsched_repeats hsched hsv h
  | xform p =>
    obtain ⟨hsched, hsv⟩ := exec_keeps_sched_sv (by simp) (by simp) (by simp) h
    exact execXform_repeats hcfg hsched hsv h
  | subst w =>
    simp only [exec, execSubst, hcfg] at h ⊢
    exact finish_repeats h
  | rotl11 w => exact finish_repeats h
  | rdstat =>
    cases h
    rfl

end Sys2Proof.Machine
end

section
/-! SUPPORT. The encoding (30_encoding.md R70 to R77, R80, R82): a command word is its six fields, each
row of the opcode map is a list of fields (R76), and the encoder writes such fields. -/

namespace Sys2Proof

open Machine

/-! ## A command word and its fields (R70) -/

/-- A word is its six fields. -/
theorem word_eq_iff_fields (v w : Word) : v = w ↔
    v.extractLsb' 24 8 = w.extractLsb' 24 8 ∧ v.extractLsb' 16 8 = w.extractLsb' 16 8
      ∧ v.extractLsb' 13 3 = w.extractLsb' 13 3 ∧ v.extractLsb' 8 5 = w.extractLsb' 8 5
      ∧ v.extractLsb' 4 4 = w.extractLsb' 4 4 ∧ v.extractLsb' 0 4 = w.extractLsb' 0 4 := by
  have join (x : Word) (k m n : Nat) :
      x.extractLsb' (k + m) n ++ x.extractLsb' k m = x.extractLsb' k (n + m) :=
    BitVec.extractLsb'_append_extractLsb'_eq_extractLsb' rfl
  have fields (x : Word) : x.extractLsb' 24 8 ++ x.extractLsb' 16 8 ++ x.extractLsb' 13 3
      ++ x.extractLsb' 8 5 ++ x.extractLsb' 4 4 ++ x.extractLsb' 0 4 = x := by
    rw [join x 16 8 8, join x 13 3 16, join x 8 5 19, join x 4 4 24, join x 0 4 28]
    exact BitVec.extractLsb'_eq_self
  constructor
  · rintro rfl
    exact ⟨rfl, rfl, rfl, rfl, rfl, rfl⟩
  · rintro ⟨hres, hlen, hhigh, hidx, hlow, hop⟩
    rw [← fields v, ← fields w, hres, hlen, hhigh, hidx, hlow, hop]

/-! ## The rows of the opcode map, field by field (R76, R80) -/

/-- The fixed LEN of a row, if it has one (R76). -/
def Op.fixedLen : Op → Option Byte
  | .ldkey | .xform => none
  | .wrsched | .subst | .rotl11 => some 4#8
  | .nop | .derenc | .derdec | .rdsched | .rdstat => some 0#8

/-- Whether a row uses IDX (R72). -/
def Op.hasIdx : Op → Bool
  | .wrsched | .rdsched => true
  | .nop | .ldkey | .derenc | .derdec | .xform | .subst | .rotl11 | .rdstat => false

/-- `cw` is a command word of the row `op`: the reserved fields are 0 (R74), LEN and IDX are as the
row says (R80), and OP is the row's. -/
def Op.Fits (op : Op) (cw : Word) : Prop :=
  cw.extractLsb' 24 8 = 0 ∧ (∀ n ∈ op.fixedLen, cw.extractLsb' 16 8 = n)
    ∧ cw.extractLsb' 13 3 = 0 ∧ (op.hasIdx = false → cw.extractLsb' 8 5 = 0)
    ∧ cw.extractLsb' 4 4 = 0 ∧ cw.extractLsb' 0 4 = op.code

/-- The match and mask of each row say its fields. -/
theorem and_mask_eq_iff_fits {r : Row} (hr : r ∈ opTable) (cw : Word) :
    cw &&& r.mask = r.mtch ↔ r.op.Fits cw := by
  have h8 (x : Byte) : x &&& 255#8 = x := BitVec.and_allOnes
  have h5 (x : BitVec 5) : x &&& 31#5 = x := BitVec.and_allOnes
  have h4 (x : Nibble) : x &&& 15#4 = x := BitVec.and_allOnes
  have h3 (x : BitVec 3) : x &&& 7#3 = x := BitVec.and_allOnes
  rw [word_eq_iff_fields]
  simp only [opTable, List.mem_cons, List.not_mem_nil, or_false] at hr
  rcases hr with rfl | rfl | rfl | rfl | rfl | rfl | rfl | rfl | rfl | rfl <;>
    simp [BitVec.extractLsb'_and, h8, h5, h4, h3, Op.Fits, Op.code, Op.hasIdx, Op.fixedLen]

theorem Op.code_injective : Function.Injective Op.code := by
  intro a b
  cases a <;> cases b <;> decide

theorem Op.code_lt (op : Op) : op.code.toNat < 0xA := by
  cases op <;> decide

/-- Every OP below 0xA is a row's (R76). -/
theorem exists_op_code_eq {x : Nibble} (h : x.toNat < 0xA) : ∃ op : Op, op.code = x := by
  have hcodes : ∀ y : Nibble, y.toNat < 0xA → y ∈ opTable.map fun r => r.op.code := by decide
  obtain ⟨r, -, hr⟩ := List.mem_map.mp (hcodes x h)
  exact ⟨r.op, hr⟩

theorem exists_row (op : Op) : ∃ r ∈ opTable, r.op = op := by
  cases op <;> decide

/-- Two rows with the same OP are the same row (R75). -/
theorem row_eq_of_op {r r' : Row} (hr : r ∈ opTable) (hr' : r' ∈ opTable) (h : r.op = r'.op) :
    r = r' := by
  have hrows : ∀ r ∈ opTable, ∀ r' ∈ opTable, r.op = r'.op → r = r' := by decide
  exact hrows r hr r' hr' h

/-- The lookup finds the row whose fields CW has. -/
theorem lookup_eq_some_iff {cw : Word} {op : Op} : lookup cw = some op ↔ op.Fits cw := by
  constructor
  · intro h
    obtain ⟨r, hr, rfl, hm⟩ := lookup_some h
    exact (and_mask_eq_iff_fits hr cw).mp hm
  · intro h
    have ⟨_, _, _, _, _, hcode⟩ := h
    obtain ⟨r, hr, rfl⟩ := exists_row op
    cases hl : lookup cw with
    | none => exact absurd ((and_mask_eq_iff_fits hr cw).mpr h) ((lookup_none_iff cw).mp hl r hr)
    | some op =>
      have : op.code = r.op.code := (op_code_of_lookup hl).trans hcode
      rw [Op.code_injective this]

/-- With the OP of a row, a word is legal exactly when it has the row's fields. -/
theorem lookup_eq_none_iff_of_code {cw : Word} {op : Op} (h : op.code = cw.extractLsb' 0 4) :
    lookup cw = none ↔ ¬ op.Fits cw := by
  cases hl : lookup cw with
  | none => simp [← lookup_eq_some_iff, hl]
  | some op' =>
    have hop : op' = op := Op.code_injective ((op_code_of_lookup hl).trans h.symm)
    simp [← lookup_eq_some_iff, hl, hop]

theorem lookup_eq_none_of_le {cw : Word} (h : 0xA ≤ (cw.extractLsb' 0 4).toNat) :
    lookup cw = none := by
  cases hl : lookup cw with
  | none => rfl
  | some op =>
    have hcode : op.code = cw.extractLsb' 0 4 := op_code_of_lookup hl
    have := op.code_lt
    rw [hcode] at this
    omega

/-- With LEN payload bytes, what decodes to a row's command is what that row matches. -/
theorem exists_decode_iff {cw : Word} {p : List Byte} (hp : p.length = cwLen cw) {r : Row}
    (hr : r ∈ opTable) :
    (∃ i, decode cw p = .ok i ∧ i.op = r.op) ↔ cw &&& r.mask = r.mtch := by
  rw [and_mask_eq_iff_fits hr, ← lookup_eq_some_iff]
  simp only [decode_ok_iff]
  constructor
  · rintro ⟨i, ⟨op, hl, -, rfl⟩, hop⟩
    rw [hl, ← hop, op_assemble]
  · intro hl
    exact ⟨_, ⟨r.op, hl, hp, rfl⟩, op_assemble ..⟩

/-- Settles O3: each clause is `exists_decode_iff` at its row. -/
theorem decodeFollowsOpcodeMap : Obligations.DecodeFollowsOpcodeMap := by
  intro cw p hp
  have row (r : Row) (hr : r ∈ opTable) := exists_decode_iff hp hr
  simp only [opTable, List.forall_mem_cons] at row
  obtain ⟨hnop, hldkey, hderenc, hderdec, hwrsched, hrdsched, hxform, hsubst, hrotl11, hrdstat, -⟩ :=
    row
  exact ⟨hnop, hldkey, hderenc, hderdec, hwrsched, hrdsched, hxform, hsubst, hrotl11, hrdstat,
    fun h => (decode_illegal_iff cw p).mpr (lookup_eq_none_of_le h)⟩

/-- Settles O5: a matched row is the one with CW's OP. -/
theorem opcodeRowsDoNotOverlap : Obligations.OpcodeRowsDoNotOverlap := by
  refine ⟨fun cw r hr r' hr' hm hm' => ?_, by decide⟩
  obtain ⟨-, -, -, -, -, hcode⟩ := (and_mask_eq_iff_fits hr cw).mp hm
  obtain ⟨-, -, -, -, -, hcode'⟩ := (and_mask_eq_iff_fits hr' cw).mp hm'
  exact row_eq_of_op hr hr' (Op.code_injective (hcode.symm.trans hcode'))

/-- Settles O7: the decoder computes them. -/
theorem listedWordsDecode : Obligations.ListedWordsDecode := by
  unfold Obligations.ListedWordsDecode
  decide

/-! ## Illegal words (R74, R80, R203) -/

/-- Without a row, the word breaks one of the rules of R80. -/
theorem lookup_eq_none_iff (cw : Word) : lookup cw = none ↔
    0xA ≤ (cw.extractLsb' 0 4).toNat
      ∨ cw.extractLsb' 4 4 ≠ 0 ∨ cw.extractLsb' 13 3 ≠ 0 ∨ cw.extractLsb' 24 8 ≠ 0
      ∨ (cw.extractLsb' 8 5 ≠ 0 ∧ cw.extractLsb' 0 4 ≠ 4 ∧ cw.extractLsb' 0 4 ≠ 5)
      ∨ (cw.extractLsb' 16 8 ≠ 0
          ∧ (cw.extractLsb' 0 4 = 0 ∨ cw.extractLsb' 0 4 = 2 ∨ cw.extractLsb' 0 4 = 3
            ∨ cw.extractLsb' 0 4 = 5 ∨ cw.extractLsb' 0 4 = 9))
      ∨ (cw.extractLsb' 16 8 ≠ 4
          ∧ (cw.extractLsb' 0 4 = 4 ∨ cw.extractLsb' 0 4 = 7 ∨ cw.extractLsb' 0 4 = 8)) := by
  by_cases h : 0xA ≤ (cw.extractLsb' 0 4).toNat
  · simp only [lookup_eq_none_of_le h, h, true_or]
  · obtain ⟨op, hop⟩ := exists_op_code_eq (Nat.lt_of_not_le h)
    rw [lookup_eq_none_iff_of_code hop, Op.Fits, ← hop]
    cases op <;> simp [Op.code, Op.hasIdx, Op.fixedLen] <;> tauto

/-- A response word without result bytes (R78). -/
theorem Machine.responseWord_zero (c : Code) (op : Nibble) :
    responseWord c op 0 = 0#24 ++ op ++ codeBits c := by
  have h : 0#16 ++ BitVec.ofNat 8 0 = 0#24 := by decide
  rw [responseWord, h]

/-- IllegalCommand, written out: LAST and the response are all it writes (R203, R207). -/
theorem Machine.illegalCommand_eq (cw : Word) (s : State) :
    illegalCommand cw s
      = .next { s with last := 3, rw := 0#24 ++ cw.extractLsb' 0 4 ++ 3#4, result := [] } := by
  rw [illegalCommand, raise_eq, responseWord_zero]
  rfl

/-- Settles O4: legality is decided by `lookup` alone, and an illegal word runs IllegalCommand. -/
theorem illegalWordsAreExactlyTheListedOnes : Obligations.IllegalWordsAreExactlyTheListedOnes := by
  intro cw p
  rw [decode_illegal_iff]
  refine ⟨lookup_eq_none_iff cw, fun hl s => ?_⟩
  rw [transact, runLatched_of_lookup_none (by exact hl), illegalCommand_eq]
  rfl

/-! ## The encoder (R82) -/

/-- The payload fits the LEN field (R73). -/
theorem Instr.payload_length_lt {i : Instr} (hi : i.wf = true) : i.payload.length < 2 ^ 8 := by
  cases i with
  | ldkey p | xform p =>
    simp only [Instr.wf, payloadFits, decide_eq_true_eq] at hi
    exact Nat.lt_succ_of_le hi
  | _ => simp [Instr.payload]

theorem Instr.idx_lt (i : Instr) : i.idx < 2 ^ 5 := by
  cases i with
  | wrsched j w | rdsched j => exact j.isLt
  | _ => exact Nat.two_pow_pos 5

/-- A value shifted to its field is read back there. -/
theorem extractLsb'_shifted_same {m k : Nat} (x : BitVec m) (h : k + m ≤ 32) :
    (x.setWidth 32 <<< k).extractLsb' k m = x := by
  ext j hj
  simp [hj, (by omega : k + j < 32)]

/-- A value shifted to its field leaves every other field 0. -/
theorem extractLsb'_shifted_other {m k l n : Nat} (x : BitVec m) (h : l + n ≤ k ∨ k + m ≤ l) :
    (x.setWidth 32 <<< k).extractLsb' l n = 0 := by
  ext j hj
  obtain h | h := h
  · simp [(by omega : l + j < k)]
  · simp [BitVec.getLsbD_of_ge x (l + j - k) (by omega)]

/-- The six fields of OP, IDX and LEN put together as R82 says. -/
theorem fields_of_or_shifts (op : Nibble) (idx : BitVec 5) (len : Byte) {cw : Word}
    (h : cw = op.setWidth 32 ||| (idx.setWidth 32 <<< 8) ||| (len.setWidth 32 <<< 16)) :
    cw.extractLsb' 24 8 = 0 ∧ cw.extractLsb' 16 8 = len ∧ cw.extractLsb' 13 3 = 0
      ∧ cw.extractLsb' 8 5 = idx ∧ cw.extractLsb' 4 4 = 0 ∧ cw.extractLsb' 0 4 = op := by
  rw [← BitVec.shiftLeft_zero (op.setWidth 32)] at h
  simp (disch := omega) only [h, BitVec.extractLsb'_or, extractLsb'_shifted_same,
    extractLsb'_shifted_other]
  simp

/-- The fields of an encoded command word. -/
theorem encode_fields {i : Instr} (hi : i.wf = true) :
    (encode i).cw.extractLsb' 24 8 = 0
      ∧ (encode i).cw.extractLsb' 16 8 = BitVec.ofNat 8 i.payload.length
      ∧ (encode i).cw.extractLsb' 13 3 = 0
      ∧ (encode i).cw.extractLsb' 8 5 = BitVec.ofNat 5 i.idx
      ∧ (encode i).cw.extractLsb' 4 4 = 0 ∧ (encode i).cw.extractLsb' 0 4 = i.op.code := by
  apply fields_of_or_shifts
  rw [BitVec.setWidth_ofNat_of_le_of_lt (by decide) i.idx_lt,
    BitVec.setWidth_ofNat_of_le_of_lt (by decide) (Instr.payload_length_lt hi)]
  rfl

/-- The encoder writes a word of the instruction's row (R76). -/
theorem fits_encode {i : Instr} (hi : i.wf = true) : i.op.Fits (encode i).cw := by
  obtain ⟨hres, hlen, hhigh, hidx, hlow, hop⟩ := encode_fields hi
  refine ⟨hres, ?_, hhigh, ?_, hlow, hop⟩
  · rw [hlen]
    cases i <;> simp [Instr.op, Op.fixedLen, Instr.payload]
  · rw [hidx]
    cases i <;> simp [Instr.op, Op.hasIdx, Instr.idx]

theorem cwLen_encode {i : Instr} (hi : i.wf = true) : cwLen (encode i).cw = i.payload.length := by
  obtain ⟨-, hlen, -, -, -, -⟩ := encode_fields hi
  rw [cwLen, hlen, BitVec.toNat_ofNat]
  exact Nat.mod_eq_of_lt (Instr.payload_length_lt hi)

theorem cwIdx_encode {i : Instr} (hi : i.wf = true) : (cwIdx (encode i).cw).val = i.idx := by
  obtain ⟨-, -, -, hidx, -, -⟩ := encode_fields hi
  calc (cwIdx (encode i).cw).val = ((encode i).cw.extractLsb' 8 5).toNat := rfl
    _ = i.idx % 2 ^ 5 := by rw [hidx, BitVec.toNat_ofNat]
    _ = i.idx := Nat.mod_eq_of_lt i.idx_lt

/-- Settles O6: `encode_fields`, with LEN and IDX read as numbers. -/
theorem encodeFollowsFieldLayout : Obligations.EncodeFollowsFieldLayout := by
  intro i hi
  obtain ⟨hres, -, hhigh, -, hlow, hop⟩ := encode_fields hi
  exact ⟨hres, cwLen_encode hi, hhigh, cwIdx_encode hi, hlow, hop⟩

/-- Operand assembly (R77) undoes the encoding of the operands (R82). -/
theorem assemble_encode {i : Instr} (hi : i.wf = true) :
    assemble i.op (encode i).cw i.payload = i := by
  cases i with
  | wrsched j w =>
    have hj : cwIdx (encode (.wrsched j w)).cw = j := Fin.ext (cwIdx_encode hi)
    simp only [Instr.op, assemble, hj, Instr.payload, be32_bytesBE32]
  | rdsched j =>
    have hj : cwIdx (encode (.rdsched j)).cw = j := Fin.ext (cwIdx_encode hi)
    simp only [Instr.op, assemble, hj]
  | subst w | rotl11 w => simp only [Instr.op, assemble, Instr.payload, be32_bytesBE32]
  | nop | ldkey p | derenc | derdec | xform p | rdstat => rfl

/-- An encoded well-formed instruction decodes to itself. -/
theorem decode_encode {i : Instr} (hi : i.wf = true) :
    decode (encode i).cw (encode i).payload = .ok i :=
  (decode_ok_iff _ _ _).mpr ⟨i.op, lookup_eq_some_iff.mpr (fits_encode hi),
    (cwLen_encode hi).symm, (assemble_encode hi).symm⟩

/-- Settles O1: the encoder writes a word of the row, and the row's operands are read back. -/
theorem decodeOfEncodeIsIdentity : Obligations.DecodeOfEncodeIsIdentity :=
  fun _ hi => ⟨decode_encode hi, (cwLen_encode hi).symm⟩

/-! ## Encoding what was decoded -/

theorem cwLen_lt (cw : Word) : cwLen cw < 2 ^ 8 := (cw.extractLsb' 16 8).isLt

/-- A row's fixed LEN is the length of the payload. -/
theorem Op.Fits.payload_length {op : Op} {cw : Word} (h : op.Fits cw) {p : List Byte}
    (hp : p.length = cwLen cw) : ∀ n ∈ op.fixedLen, p.length = n.toNat := by
  obtain ⟨-, hlen, -, -, -, -⟩ := h
  intro n hn
  rw [hp, cwLen, hlen n hn]

/-- The operands of a row hold its whole payload (R77). -/
theorem payload_assemble {op : Op} {cw : Word} (h : op.Fits cw) {p : List Byte}
    (hp : p.length = cwLen cw) : (assemble op cw p).payload = p := by
  have hlen := h.payload_length hp
  cases op with
  | ldkey | xform => rfl
  | nop | derenc | derdec | rdsched | rdstat =>
    exact (List.length_eq_zero_iff.mp (hlen 0 rfl)).symm
  | wrsched | subst | rotl11 =>
    have h4 : p.length = 4 := hlen 4 rfl
    simp only [assemble, Instr.payload]
    rw [bytesBE32_be32 (by omega), List.drop_zero, List.take_of_length_le h4.le]

/-- The operands of a row hold its IDX. -/
theorem idx_assemble {op : Op} {cw : Word} (h : op.Fits cw) (p : List Byte) :
    BitVec.ofNat 5 (assemble op cw p).idx = cw.extractLsb' 8 5 := by
  obtain ⟨-, -, -, hidx, -, -⟩ := h
  cases op with
  | wrsched | rdsched => exact (BitVec.ofNat_toNat 5 _).trans (BitVec.setWidth_eq _)
  | nop | ldkey | derenc | derdec | xform | subst | rotl11 | rdstat => exact (hidx rfl).symm

theorem wf_assemble (op : Op) {cw : Word} {p : List Byte} (hp : p.length = cwLen cw) :
    (assemble op cw p).wf = true := by
  cases op with
  | ldkey | xform => exact decide_eq_true (Nat.le_of_lt_succ (hp ▸ cwLen_lt cw))
  | _ => rfl

/-- A word of a row is the encoding of its operands: all six fields agree. -/
theorem encode_assemble {op : Op} {cw : Word} (h : op.Fits cw) {p : List Byte}
    (hp : p.length = cwLen cw) : encode (assemble op cw p) = ⟨cw, p⟩ := by
  have ⟨hres, _, hhigh, _, hlow, hop⟩ := h
  obtain ⟨eres, elen, ehigh, eidx, elow, eop⟩ := encode_fields (wf_assemble op hp)
  have hpayload := payload_assemble h hp
  have hlen : BitVec.ofNat 8 p.length = cw.extractLsb' 16 8 := by
    rw [hp, cwLen, BitVec.ofNat_toNat, BitVec.setWidth_eq]
  have hcw : (encode (assemble op cw p)).cw = cw := by
    rw [word_eq_iff_fields]
    exact ⟨eres.trans hres.symm, by rw [elen, hpayload, hlen], ehigh.trans hhigh.symm,
      eidx.trans (idx_assemble h p), elow.trans hlow.symm, by rw [eop, op_assemble, hop]⟩
  exact congrArg₂ Command.mk hcw hpayload

/-- Settles O2: what decodes is assembled from a row that the word fits. -/
theorem encodeOfDecodeIsIdentity : Obligations.EncodeOfDecodeIsIdentity := by
  intro cw p i h
  obtain ⟨op, hl, hp, rfl⟩ := (decode_ok_iff cw p i).mp h
  exact ⟨encode_assemble (lookup_eq_some_iff.mp hl) hp, wf_assemble op hp⟩

end Sys2Proof
end

section
/-! SUPPORT. Steps at the ports (30_encoding.md R84 to R90): an edge without rst is its transfers and then
the settling of EXEC; what each of the two changes. -/

namespace Sys2Proof.Machine

/-! ## The two parts of an edge without rst -/

/-- The host's side has moved on to the coming edge: its inputs are used up, and the offers that are
not transferred stand (R89). -/
def noted (s : State) : State := noteOffers (nextInputs s) (dropEdge s)

/-- The state after the transfers of the coming edge, before EXEC is settled. -/
def afterTransfers (s : State) : State := advance (nextInputs s) (noted s)

theorem settle_of_step {s t : State} (hr : (nextInputs s).rst = false) (h : step s = .next t) :
    settle (afterTransfers s) = .next t := by
  obtain ⟨-, -, -, hsettle⟩ := step_next hr h
  exact hsettle

/-- In RESP with a code that is produced, and in every other phase, no reserved code is shown (R206). -/
theorem showsReservedCode_eq_false {s : State} (h : s.phase = .resp → (rwCode s.rw).toNat ≤ 5) :
    showsReservedCode s = false := by
  cases hp : s.phase with
  | resp => simpa [showsReservedCode, outputs, hp, reservedCode] using h hp
  | _ => simp [showsReservedCode, outputs, hp]

/-- An edge that is not refused (R89, R206, R231). -/
theorem step_eq_settle {s : State} (hstarted : s.started = true)
    (hr : (nextInputs s).rst = false) (hk : keepsDuty (nextInputs s) s = true)
    (hcode : s.phase = .resp → (rwCode s.rw).toNat ≤ 5) :
    step s = settle (afterTransfers s) := by
  have hk' : keepsDuty (nextInputs s) (dropEdge s) = true := hk
  have hc' : showsReservedCode (dropEdge s) = false := showsReservedCode_eq_false hcode
  simp [step, edge, hr, hstarted, hk', hc', afterTransfers, noted]

theorem settle_of_ne {s : State} (h : s.phase ≠ .exec 0) : settle s = .next s := by
  unfold settle
  split
  · exact absurd ‹_› h
  · rfl

theorem settle_exec_zero {s t : State} (hp : s.phase = .exec 0) (h : runLatched s = .next t) :
    settle s = .next { t with phase := .resp } := by
  simp [settle, hp, leaveExec, h]

/-! ## What the transfers change -/

theorem awaitPayload_eq (n : Nat) (s : State) :
    awaitPayload n s = { s with phase := (awaitPayload n s).phase } := by
  unfold awaitPayload
  split <;> rfl

theorem awaitPayload_phase_of_ne {n : Nat} (s : State) (h : n ≠ 0) :
    (awaitPayload n s).phase = .payload n := by
  simp [awaitPayload, h]

theorem awaitPayload_phase_zero (s : State) : ∃ k, (awaitPayload 0 s).phase = .exec k := ⟨_, rfl⟩

theorem awaitResult_eq (n : Nat) (s : State) :
    awaitResult n s = { s with
      phase := (awaitResult n s).phase, transcript := (awaitResult n s).transcript } := by
  unfold awaitResult
  split <;> rfl

theorem awaitResult_phase (n : Nat) (s : State) :
    (awaitResult n s).phase = if n = 0 then .idle else .out n := by
  unfold awaitResult
  split <;> rfl

/-- The fields no transfer changes: the parameters, the architectural state, the response and the
host's side. -/
def SameBeside (s t : State) : Prop :=
  ∃ (p : Phase) (w : Word) (bs sn : List Byte) (tr : List (Command × Response)),
    t = { s with phase := p, cw := w, payload := bs, sent := sn, transcript := tr }

theorem advance_sameBeside (pin : PortIn) (s : State) : SameBeside s (advance pin s) := by
  cases hp : s.phase with
  | idle =>
    rw [advance_idle pin hp]
    cases pin.cmd with
    | none => exact ⟨_, _, _, _, _, rfl⟩
    | some w => exact ⟨_, _, _, _, _, awaitPayload_eq ..⟩
  | payload n =>
    rw [advance_payload pin hp]
    cases pin.inb with
    | none => exact ⟨_, _, _, _, _, rfl⟩
    | some b => exact ⟨_, _, _, _, _, awaitPayload_eq ..⟩
  | exec n =>
    rw [advance_exec pin hp]
    exact ⟨_, _, _, _, _, rfl⟩
  | resp =>
    rw [advance_resp pin hp]
    split
    · exact ⟨_, _, _, _, _, awaitResult_eq ..⟩
    · exact ⟨_, _, _, _, _, rfl⟩
  | out n =>
    rw [advance_out pin hp]
    split
    · exact ⟨_, _, _, _, _, awaitResult_eq ..⟩
    · exact ⟨_, _, _, _, _, rfl⟩

@[simp] theorem awaitPayload_cw (n : Nat) (s : State) : (awaitPayload n s).cw = s.cw := by
  rw [awaitPayload_eq]

@[simp] theorem awaitPayload_payload (n : Nat) (s : State) :
    (awaitPayload n s).payload = s.payload := by
  rw [awaitPayload_eq]

@[simp] theorem awaitResult_cw (n : Nat) (s : State) : (awaitResult n s).cw = s.cw := by
  rw [awaitResult_eq]

@[simp] theorem awaitResult_payload (n : Nat) (s : State) :
    (awaitResult n s).payload = s.payload := by
  rw [awaitResult_eq]

@[simp] theorem awaitResult_sent (n : Nat) (s : State) : (awaitResult n s).sent = s.sent := by
  rw [awaitResult_eq]

/-- The command word changes only by the cmd transfer (R85). -/
theorem advance_cw (pin : PortIn) (s : State) :
    (advance pin s).cw = if s.phase = .idle then pin.cmd.getD s.cw else s.cw := by
  cases hp : s.phase with
  | idle => cases hc : pin.cmd <;> simp [advance_idle pin hp, hc, takeCommand]
  | payload n => cases hb : pin.inb <;> simp [advance_payload pin hp, hb, takeByte]
  | exec n => simp [advance_exec pin hp]
  | resp => cases hy : pin.rspReady <;> simp [advance_resp pin hp, hy, giveResponse]
  | out n => cases hy : pin.outReady <;> simp [advance_out pin hp, hy, giveByte]

/-- In PAYLOAD an offered byte is taken (R87). -/
theorem payload_advance_payload {s : State} {n : Nat} (pin : PortIn) (hp : s.phase = .payload n) :
    (advance pin s).payload = s.payload ++ pin.inb.toList := by
  cases hb : pin.inb <;> simp [advance_payload pin hp, hb, takeByte]

/-- Outside PAYLOAD no byte is taken (R87): the payload is kept, or emptied by the cmd transfer. -/
theorem payload_advance_of_ne {s : State} (pin : PortIn) (hp : ∀ n, s.phase ≠ .payload n) :
    (advance pin s).payload = s.payload ∨ s.phase = .idle ∧ (advance pin s).payload = [] := by
  cases hp' : s.phase with
  | idle => cases hc : pin.cmd <;> simp [advance_idle pin hp', hc, takeCommand]
  | payload n => exact absurd hp' (hp n)
  | exec n => simp [advance_exec pin hp']
  | resp => cases hy : pin.rspReady <;> simp [advance_resp pin hp', hy, giveResponse]
  | out n => cases hy : pin.outReady <;> simp [advance_out pin hp', hy, giveByte]

theorem sent_advance_out {s : State} {n : Nat} {pin : PortIn} (hp : s.phase = .out n)
    (hy : pin.outReady = true) :
    (advance pin s).sent = s.sent ++ (outByte n s).toList := by
  simp [advance_out pin hp, hy, giveByte]

/-- After the edges of RESP and OUT CORE is in IDLE, RESP or OUT. -/
theorem phase_advance_ne_exec {s : State} (pin : PortIn)
    (hp : s.phase = .resp ∨ ∃ n, s.phase = .out n) (k : Nat) : (advance pin s).phase ≠ .exec k := by
  obtain hp | ⟨n, hp⟩ := hp
  · rw [advance_resp pin hp]
    split
    · rw [giveResponse, awaitResult_phase]
      split <;> simp
    · simp [hp]
  · rw [advance_out pin hp]
    split
    · rw [giveByte, awaitResult_phase]
      split <;> simp
    · simp [hp]

/-! ## The offers that stand after an edge (R89) -/

theorem outputs_cmdReady (s : State) : (outputs s).cmdReady = decide (s.phase = .idle) := by
  cases hp : s.phase <;> simp [outputs, hp]

theorem outputs_inReady_of_payload {s : State} {n : Nat} (hp : s.phase = .payload n) :
    (outputs s).inReady = true := by
  simp [outputs, hp]

theorem outputs_inReady_of_ne {s : State} (hp : ∀ n, s.phase ≠ .payload n) :
    (outputs s).inReady = false := by
  cases hp' : s.phase with
  | payload n => exact absurd hp' (hp n)
  | _ => simp [outputs, hp']

/-- An offer stands unless its channel was ready. -/
theorem offers_of_step {s t : State} (hr : (nextInputs s).rst = false) (h : step s = .next t) :
    t.cmdOffer = (if (outputs s).cmdReady then none else (nextInputs s).cmd)
      ∧ t.inOffer = if (outputs s).inReady then none else (nextInputs s).inb := by
  obtain ⟨-, -, -, -, -, -, hcmd, hin, -⟩ := settle_sameTransport (settle_of_step hr h)
  obtain ⟨p, w, bs, sn, tr, hadv⟩ :=
    advance_sameBeside (nextInputs s) (noted s)
  rw [afterTransfers, hadv] at hcmd hin
  exact ⟨hcmd, hin⟩

theorem inOffer_of_step_of_ne {s t : State} (hr : (nextInputs s).rst = false)
    (h : step s = .next t) (hp : ∀ n, s.phase ≠ .payload n) : t.inOffer = (nextInputs s).inb := by
  obtain ⟨-, hin⟩ := offers_of_step hr h
  rw [hin, outputs_inReady_of_ne hp]
  rfl

theorem inOffer_of_step_of_payload {s t : State} {n : Nat} (hr : (nextInputs s).rst = false)
    (h : step s = .next t) (hp : s.phase = .payload n) : t.inOffer = none := by
  obtain ⟨-, hin⟩ := offers_of_step hr h
  rw [hin, outputs_inReady_of_payload hp]
  rfl

/-- A standing offer that is dropped or changed breaks a duty (R89). -/
theorem keepsOffer_eq_false {α : Type} [DecidableEq α] {offered now : Option α} {x : α}
    (h : offered = some x) (hne : now ≠ some x) : keepsOffer offered now = false := by
  simp [keepsOffer, h, hne.symm]

/-- Settles O44: a broken offer fails `keepsDuty`; what stands afterwards is `offers_of_step`. -/
theorem brokenOffersAreRefused : Obligations.BrokenOffersAreRefused := by
  constructor
  · intro s hstarted hr hbroken
    have hk : keepsDuty (nextInputs s) (dropEdge s) = false := by
      rw [keepsDuty, Bool.and_eq_false_iff]
      exact hbroken.imp (fun ⟨w, hw, hne⟩ => keepsOffer_eq_false hw hne)
        fun ⟨b, hb, hne⟩ => keepsOffer_eq_false hb hne
    simp [step, edge, hr, hstarted, hk]
  · intro s t hr h
    obtain ⟨hcmd, -⟩ := offers_of_step hr h
    refine ⟨by simpa [outputs_cmdReady] using hcmd, ?_, inOffer_of_step_of_ne hr h⟩
    rintro ⟨n, hp⟩
    exact inOffer_of_step_of_payload hr h hp

/-! ## The transport registers after a step -/

theorem cw_of_step {s t : State} (hr : (nextInputs s).rst = false) (h : step s = .next t) :
    t.cw = if s.phase = .idle then (nextInputs s).cmd.getD s.cw else s.cw := by
  obtain ⟨-, -, -, hcw, -⟩ := settle_sameTransport (settle_of_step hr h)
  exact hcw.trans (advance_cw _ (noted s))

theorem payload_of_step_of_payload {s t : State} {n : Nat} (hr : (nextInputs s).rst = false)
    (h : step s = .next t) (hp : s.phase = .payload n) :
    t.payload = s.payload ++ (nextInputs s).inb.toList := by
  obtain ⟨-, -, -, -, hpayload, -⟩ := settle_sameTransport (settle_of_step hr h)
  exact hpayload.trans (payload_advance_payload (s := noted s) _ hp)

theorem payload_of_step_of_ne {s t : State} (hr : (nextInputs s).rst = false)
    (h : step s = .next t) (hp : ∀ n, s.phase ≠ .payload n) :
    t.payload = s.payload ∨ s.phase = .idle ∧ t.payload = [] := by
  obtain ⟨-, -, -, -, hpayload, -⟩ := settle_sameTransport (settle_of_step hr h)
  rw [show t.payload = (afterTransfers s).payload from hpayload]
  exact payload_advance_of_ne (s := noted s) _ hp

theorem sent_of_step_out {s t : State} {n : Nat} (hr : (nextInputs s).rst = false)
    (h : step s = .next t) (hp : s.phase = .out n) (hy : (nextInputs s).outReady = true) :
    t.sent = s.sent ++ (outByte n s).toList := by
  obtain ⟨-, -, -, -, -, hsent, -⟩ := settle_sameTransport (settle_of_step hr h)
  exact hsent.trans (sent_advance_out (s := noted s) hp hy)

/-- No command runs at an edge of RESP or OUT, so the response stays (R88). -/
theorem response_of_step {s t : State} (hr : (nextInputs s).rst = false) (h : step s = .next t)
    (hp : s.phase = .resp ∨ ∃ n, s.phase = .out n) : t.rw = s.rw ∧ t.result = s.result := by
  have hne : (afterTransfers s).phase ≠ .exec 0 := phase_advance_ne_exec (s := noted s) _ hp 0
  obtain ⟨-, rfl⟩ | ⟨hexec, -⟩ := settle_next (settle_of_step hr h)
  · obtain ⟨p, w, bs, sn, tr, hadv⟩ := advance_sameBeside (nextInputs s) (noted s)
    rw [afterTransfers, hadv]
    exact ⟨rfl, rfl⟩
  · exact absurd hexec hne

/-- Settles O57: `cw_of_step` and `response_of_step`. -/
theorem transfersTakeTheOfferedWord : Obligations.TransfersTakeTheOfferedWord := by
  intro s t hr h
  have hcw := cw_of_step hr h
  refine ⟨?_, ?_, response_of_step hr h⟩
  · intro w hp hc
    rw [hcw, if_pos hp, hc, Option.getD_some]
  · rintro (hp | hc)
    · rw [hcw, if_neg hp]
    · rw [hcw, hc, Option.getD_none, ite_self]

/-- Settles O42: what a step makes of the payload, of the offered byte and of the sent bytes. -/
theorem payloadBytesAreTakenOnlyInPayload : Obligations.PayloadBytesAreTakenOnlyInPayload := by
  intro s t hr h
  refine ⟨?_, ?_, ?_, ?_⟩
  · intro n b hp hb
    rw [payload_of_step_of_payload hr h hp, hb]
    exact ⟨rfl, inOffer_of_step_of_payload hr h hp⟩
  · intro n hp hb
    rw [payload_of_step_of_payload hr h hp, hb, Option.toList_none, List.append_nil]
  · intro hp
    exact ⟨inOffer_of_step_of_ne hr h hp, payload_of_step_of_ne hr h hp⟩
  · intro n b hp hy hb
    have hbyte : outByte n s = some b := hb
    rw [sent_of_step_out hr h hp hy, hbyte, Option.toList_some]

/-! ## The phase after a step (R86) -/

/-- The phase that settling leaves: EXEC with no cycle left is RESP (R88). -/
def settledPhase (p : Phase) : Phase := if p = .exec 0 then .resp else p

theorem phase_of_step {s t : State} (hr : (nextInputs s).rst = false) (h : step s = .next t) :
    t.phase = settledPhase (afterTransfers s).phase :=
  settle_phase (settle_of_step hr h)

theorem settledPhase_exec (k : Nat) :
    (∃ n, 0 < n ∧ settledPhase (.exec k) = .exec n) ∨ settledPhase (.exec k) = .resp := by
  cases k with
  | zero => exact .inr rfl
  | succ k => exact .inl ⟨k + 1, k.succ_pos, by simp [settledPhase]⟩

/-- With no byte missing EXEC is entered, and left at once if it lasts no cycle. -/
theorem settledPhase_awaitPayload_zero (s : State) :
    (∃ n, 0 < n ∧ settledPhase (awaitPayload 0 s).phase = .exec n)
      ∨ settledPhase (awaitPayload 0 s).phase = .resp := by
  obtain ⟨k, hk⟩ := awaitPayload_phase_zero s
  rw [hk]
  exact settledPhase_exec k

theorem settledPhase_awaitPayload_of_ne {n : Nat} (s : State) (h : n ≠ 0) :
    settledPhase (awaitPayload n s).phase = .payload n := by
  simp [awaitPayload_phase_of_ne s h, settledPhase]

theorem settledPhase_awaitResult (n : Nat) (s : State) :
    settledPhase (awaitResult n s).phase = if n = 0 then .idle else .out n := by
  rw [awaitResult_phase]
  split <;> rfl

section Phases

variable {s t : State} (hr : (nextInputs s).rst = false) (h : step s = .next t)
include hr h

theorem phase_of_step_idle (hp : s.phase = .idle) :
    ((nextInputs s).cmd = none → t.phase = .idle)
      ∧ (∀ w, (nextInputs s).cmd = some w → cwLen w ≠ 0 → t.phase = .payload (cwLen w))
      ∧ ∀ w, (nextInputs s).cmd = some w → cwLen w = 0 →
          (∃ n, 0 < n ∧ t.phase = .exec n) ∨ t.phase = .resp := by
  have hp' : (noted s).phase = .idle := hp
  rw [phase_of_step hr h, afterTransfers, advance_idle _ hp']
  refine ⟨fun hc => ?_, fun w hc hl => ?_, fun w hc hl => ?_⟩
  · simp [hc, hp', settledPhase]
  · rw [hc]
    exact settledPhase_awaitPayload_of_ne _ hl
  · rw [hc]
    simp only [takeCommand, hl]
    exact settledPhase_awaitPayload_zero _

theorem phase_of_step_payload {n : Nat} (hp : s.phase = .payload n) :
    ((nextInputs s).inb = none → t.phase = .payload n)
      ∧ ((nextInputs s).inb ≠ none → 1 < n → t.phase = .payload (n - 1))
      ∧ ((nextInputs s).inb ≠ none → n ≤ 1 →
          (∃ n, 0 < n ∧ t.phase = .exec n) ∨ t.phase = .resp) := by
  have hp' : (noted s).phase = .payload n := hp
  rw [phase_of_step hr h, afterTransfers, advance_payload _ hp']
  cases (nextInputs s).inb with
  | none => simp [hp', settledPhase]
  | some b =>
    refine ⟨nofun, fun _ hn => ?_, fun _ hn => ?_⟩
    · exact settledPhase_awaitPayload_of_ne _ (by omega)
    · have h0 : n - 1 = 0 := by omega
      simp only [takeByte, h0]
      exact settledPhase_awaitPayload_zero _

theorem phase_of_step_exec {n : Nat} (hp : s.phase = .exec n) :
    (1 < n → t.phase = .exec (n - 1)) ∧ (n ≤ 1 → t.phase = .resp) := by
  have hp' : (noted s).phase = .exec n := hp
  rw [phase_of_step hr h, afterTransfers, advance_exec _ hp']
  simp only [settledPhase, Phase.exec.injEq]
  exact ⟨fun hn => if_neg (by omega), fun hn => if_pos (by omega)⟩

theorem phase_of_step_resp (hp : s.phase = .resp) :
    ((nextInputs s).rspReady = false → t.phase = .resp)
      ∧ ((nextInputs s).rspReady = true →
          t.phase = if rwRlen s.rw = 0 then .idle else .out (rwRlen s.rw)) := by
  have hp' : (noted s).phase = .resp := hp
  rw [phase_of_step hr h, afterTransfers, advance_resp _ hp']
  refine ⟨fun hy => ?_, fun hy => ?_⟩
  · simp [hy, hp', settledPhase]
  · rw [if_pos hy]
    exact settledPhase_awaitResult ..

theorem phase_of_step_out {n : Nat} (hp : s.phase = .out n) :
    ((nextInputs s).outReady = false → t.phase = .out n)
      ∧ ((nextInputs s).outReady = true → t.phase = if n ≤ 1 then .idle else .out (n - 1)) := by
  have hp' : (noted s).phase = .out n := hp
  rw [phase_of_step hr h, afterTransfers, advance_out _ hp']
  refine ⟨fun hy => ?_, fun hy => ?_⟩
  · simp [hy, hp', settledPhase]
  · have hn : (n ≤ 1) = (n - 1 = 0) := by simp; omega
    simp only [hy, if_true, giveByte, hn]
    exact settledPhase_awaitResult ..

end Phases

/-- Settles O41: the outputs are those of the phase; the phase changes are one lemma per phase. -/
theorem phasesFollowTheTransport : Obligations.PhasesFollowTheTransport := by
  refine ⟨fun s => ?_, fun s t hr h => ?_⟩
  · refine ⟨?_, ?_, ?_, ?_, ?_⟩
    · intro hp; simp [outputs, hp]
    · intro n hp; simp [outputs, hp]
    · intro n hp; simp [outputs, hp]
    · intro hp; simp [outputs, hp]
    · intro n hp; simp [outputs, hp, outByte, rwRlen]
  · exact ⟨phase_of_step_idle hr h, fun _ => phase_of_step_payload hr h,
      fun _ => phase_of_step_exec hr h, phase_of_step_resp hr h, fun _ => phase_of_step_out hr h⟩

end Sys2Proof.Machine
end

section
/-! SUPPORT. The edges that run a command or wait, and why none is refused (30_encoding.md R88 to R90). -/

namespace Sys2Proof.Machine

/-! ## The edge that leaves EXEC (R88) -/

/-- A command does the same from two states that differ in the transport only: its outcome is known
by the architectural state, the response and the fields no command writes. -/
theorem exec_eq_of_same_arch {i : Instr} {s t u v : State} (ha : archOf s = archOf u)
    (hb : s.cfg.sbox = u.cfg.sbox) (h : exec i s = .next t) (hav : archOf t = archOf v)
    (hrv : responseOf t = responseOf v) (huv : SameTransport u v) : exec i u = .next v := by
  obtain ⟨t', v', ht, hv, ha', hr'⟩ := exec_congr i ha hb
  have htt : t = t' := by
    rw [h] at ht
    exact Host.Outcome.next.inj ht
  have huv' : SameTransport u v' := exec_sameTransport hv
  have hvv : SameTransport v' v := by simp_all [SameTransport]
  rw [hv, eq_of_archOf_responseOf_sameTransport (ha'.symm.trans (htt ▸ hav))
    (hr'.symm.trans (htt ▸ hrv)) hvv]

/-- Where neither input channel is ready the offers stand as they are (R89). -/
theorem noted_eq {s : State} (hi : s.phase ≠ .idle)
    (hin : (nextInputs s).inb = none ∨ ∀ n, s.phase ≠ .payload n) :
    noted s = { s with
      edges := s.edges.tail, cmdOffer := (nextInputs s).cmd, inOffer := (nextInputs s).inb } := by
  have hcmd : (if (outputs (dropEdge s)).cmdReady then none else (nextInputs s).cmd)
      = (nextInputs s).cmd := by
    simp [outputs_cmdReady, hi]
  have hinb : (if (outputs (dropEdge s)).inReady then none else (nextInputs s).inb)
      = (nextInputs s).inb := by
    obtain hin | hin := hin
    · rw [hin, ite_self]
    · simp [outputs_inReady_of_ne (s := dropEdge s) hin]
  rw [noted, noteOffers, hcmd, hinb]
  rfl

/-- The last EXEC cycle passes without a transfer. -/
theorem afterTransfers_exec_one {s : State} (hp : s.phase = .exec 1) :
    afterTransfers s = { s with
      phase := .exec 0, edges := s.edges.tail
      cmdOffer := (nextInputs s).cmd, inOffer := (nextInputs s).inb } := by
  have hp' : (noted s).phase = .exec 1 := hp
  rw [afterTransfers, advance_exec _ hp', noted_eq (by simp [hp]) (.inr (by simp [hp]))]

/-- Settles O39: the last cycle passes, and the command does what it does without the ports. -/
theorem stepRunsTheDecodedCommand : Obligations.StepRunsTheDecodedCommand := by
  intro s t i hp hstarted hr hk hd hexec
  have hat := afterTransfers_exec_one hp
  have ht : SameTransport s t := exec_sameTransport hexec
  have hrun : runLatched (afterTransfers s) = .next { t with
      phase := .exec 0, edges := s.edges.tail
      cmdOffer := (nextInputs s).cmd, inOffer := (nextInputs s).inb } := by
    rw [hat, runLatched, hd]
    exact exec_eq_of_same_arch (s := s) rfl rfl hexec rfl rfl (by simp_all [SameTransport])
  rw [step_eq_settle hstarted hr hk (by simp [hp]), settle_exec_zero (by rw [hat]) hrun]

/-- Settles O40: the last cycle passes, and IllegalCommand is answered. -/
theorem stepAnswersIllegalCommand : Obligations.StepAnswersIllegalCommand := by
  intro s hp hstarted hr hk hd
  have hl : lookup s.cw = none := (decode_illegal_iff ..).mp hd
  rw [step_eq_settle hstarted hr hk (by simp [hp]), afterTransfers_exec_one hp,
    settle_exec_zero rfl ((runLatched_of_lookup_none (by exact hl)).trans (illegalCommand_eq ..))]

/-! ## Waiting (R90) -/

/-- Settles O43: in each of the three cases the transfers are none. -/
theorem coreWaitsWithoutTransfers : Obligations.CoreWaitsWithoutTransfers := by
  intro s hstarted hr hk hcode hwait
  have hwait' : s.phase ≠ .idle ∧ (∀ n, s.phase ≠ .exec n)
      ∧ ((nextInputs s).inb = none ∨ ∀ n, s.phase ≠ .payload n) ∧ afterTransfers s = noted s := by
    obtain ⟨⟨n, hp⟩, hb⟩ | ⟨hp, hy⟩ | ⟨⟨n, hp⟩, hy⟩ := hwait
    · have hp' : (noted s).phase = .payload n := hp
      refine ⟨by simp [hp], by simp [hp], .inl hb, ?_⟩
      rw [afterTransfers, advance_payload _ hp', hb]
    · have hp' : (noted s).phase = .resp := hp
      refine ⟨by simp [hp], by simp [hp], .inr (by simp [hp]), ?_⟩
      rw [afterTransfers, advance_resp _ hp', hy]
      rfl
    · have hp' : (noted s).phase = .out n := hp
      refine ⟨by simp [hp], by simp [hp], .inr (by simp [hp]), ?_⟩
      rw [afterTransfers, advance_out _ hp', hy]
      rfl
  obtain ⟨hidle, hexec, hin, hadv⟩ := hwait'
  have hne : (noted s).phase ≠ .exec 0 := hexec 0
  rw [step_eq_settle hstarted hr hk fun _ => hcode, hadv, settle_of_ne hne, noted_eq hidle hin]

/-! ## No refusal (R89, R206) -/

theorem exists_runLatched {s : State} (h : s.payload.length = cwLen s.cw) :
    ∃ t, runLatched s = .next t := by
  obtain ⟨-, hrun⟩ | ⟨op, -, hrun⟩ := runLatched_cases s h
  · exact ⟨_, hrun⟩
  · obtain ⟨_, _, _, _, _, _, hexec, -, -⟩ := exec_form (assemble op s.cw s.payload) s
    exact ⟨_, hrun.trans hexec⟩

/-- EXEC is left with the whole payload taken, so settling answers a next state. -/
theorem exists_settle {s : State} (h : SettlingInv s) : ∃ t, settle s = .next t := by
  obtain hinv | ⟨hp, hlen⟩ := h
  · have hne : s.phase ≠ .exec 0 := by
      intro hp
      obtain ⟨h0, -⟩ := (phaseInv_exec hp).mp hinv
      exact lt_irrefl 0 h0
    exact ⟨s, settle_of_ne hne⟩
  · obtain ⟨t, ht⟩ := exists_runLatched hlen
    exact ⟨_, settle_exec_zero hp ht⟩

theorem settlingInv_afterTransfers {s : State} (h : PhaseInv s) : SettlingInv (afterTransfers s) :=
  settlingInv_advance _ ((phaseInv_noteOffers _ _).mpr ((phaseInv_dropEdge s).mpr h))

/-- Settles O50: no check refuses the edge, and settling answers a next state. -/
theorem dutifulHostIsNeverRefused : Obligations.DutifulHostIsNeverRefused := by
  rintro s ⟨hphase, -⟩ hstarted hduty
  cases hr : (nextInputs s).rst with
  | true => exact ⟨_, step_rst hr⟩
  | false =>
    have hk : keepsDuty (nextInputs s) s = true := hduty.resolve_left (by simp [hr])
    have hcode : s.phase = .resp → (rwCode s.rw).toNat ≤ 5 := by
      intro hp
      obtain ⟨-, -, -, -, -, hcode⟩ := (phaseInv_resp hp).mp hphase
      exact hcode
    rw [step_eq_settle hstarted hr hk hcode]
    exact exists_settle (settlingInv_afterTransfers hphase)

end Sys2Proof.Machine
end

section
/-! SUPPORT. The ports and the transaction level (30_encoding.md R91): the commands CORE has run and the
responses it has given are a fold of `exec`, and every part of an edge keeps that. -/

namespace Sys2Proof.Machine

/-! ## One command, from states with one architectural state -/

/-- The command latched in `s`, presented to a state with the same architectural state, does the same. -/
theorem transact_of_runLatched {s t u : State} (ha : archOf s = archOf u)
    (hb : s.cfg.sbox = u.cfg.sbox) (h : runLatched s = .next t) :
    ∃ v, transact ⟨s.cw, s.payload⟩ u = .next v ∧ archOf v = archOf t
      ∧ responseOf v = responseOf t := by
  rw [transact, runLatched, latch_cw, latch_payload]
  unfold runLatched at h
  cases hd : decode s.cw s.payload with
  | ok i =>
    obtain ⟨t', v, ht, hv, harch, hresp⟩ := exec_congr i (t := latch ⟨s.cw, s.payload⟩ u) ha hb
    simp only [hd, ht] at h
    cases h
    exact ⟨v, hv, harch.symm, hresp.symm⟩
  | error e =>
    cases e with
    | illegalCommand =>
      simp only [hd] at h
      cases h
      refine ⟨_, rfl, ?_, rfl⟩
      exact congrArg (fun a : Arch => { a with last := codeBits .illegalCommand }) ha.symm
    | payloadLength => simp [hd] at h

theorem transact_cfg {c : Command} {s t : State} (h : transact c s = .next t) : t.cfg = s.cfg := by
  obtain ⟨hcfg, -⟩ := runLatched_sameTransport h
  exact hcfg

/-- The first command of a program that answers, and the rest of it (R54). -/
theorem runProgram_cons_next {c : Command} {cs : List Command} {s u : State} {rs : List Response}
    (h : runProgram (c :: cs) s = .next (u, rs)) :
    ∃ t qs, transact c s = .next t ∧ runProgram cs t = .next (u, qs) ∧ rs = responseOf t :: qs := by
  rw [runProgram] at h
  cases hc : transact c s with
  | next t =>
    rw [hc] at h
    cases hcs : runProgram cs t with
    | next v =>
      obtain ⟨v, qs⟩ := v
      simp only [hcs, Host.Outcome.next.injEq, Prod.mk.injEq] at h
      obtain ⟨rfl, rfl⟩ := h
      exact ⟨t, qs, rfl, hcs, rfl⟩
    | fault f => simp [hcs] at h
    | refused r => simp [hcs] at h
  | fault f => simp [hc] at h
  | refused r => simp [hc] at h

theorem runProgram_cfg {cs : List Command} {s t : State} {rs : List Response}
    (h : runProgram cs s = .next (t, rs)) : t.cfg = s.cfg := by
  induction cs generalizing s rs with
  | nil => cases h; rfl
  | cons c cs ih =>
    obtain ⟨v, qs, hc, hcs, -⟩ := runProgram_cons_next h
    exact (ih hcs).trans (transact_cfg hc)

/-! ## The record of commands and responses -/

theorem commandsRun_of_committed {s : State} (h : committed s = true) :
    commandsRun s = s.transcript.map Prod.fst ++ [⟨s.cw, s.payload⟩] := by
  rw [commandsRun, if_pos h]

theorem commandsRun_of_uncommitted {s : State} (h : committed s = false) :
    commandsRun s = s.transcript.map Prod.fst := by
  simp [commandsRun, h]

theorem responsesRun_of_committed {s : State} (h : committed s = true) :
    responsesRun s = s.transcript.map Prod.snd ++ [responseOf s] := by
  rw [responsesRun, if_pos h]

theorem responsesRun_of_uncommitted {s : State} (h : committed s = false) :
    responsesRun s = s.transcript.map Prod.snd := by
  simp [responsesRun, h]

/-- The ports have shown the same commands and responses. -/
def SameRun (s t : State) : Prop :=
  commandsRun t = commandsRun s ∧ responsesRun t = responsesRun s

theorem sameRun_of_uncommitted {s t : State} (hs : committed s = false) (ht : committed t = false)
    (htr : t.transcript = s.transcript) : SameRun s t := by
  rw [SameRun, commandsRun_of_uncommitted hs, commandsRun_of_uncommitted ht,
    responsesRun_of_uncommitted hs, responsesRun_of_uncommitted ht, htr]
  exact ⟨rfl, rfl⟩

/-- A committed command joins the transcript with the response it has had since RESP (R91). -/
theorem sameRun_complete {s : State} (hs : committed s = true) (hsent : s.sent = s.result) :
    SameRun s (complete s) := by
  rw [SameRun, commandsRun_of_committed hs, commandsRun_of_uncommitted rfl,
    responsesRun_of_committed hs, responsesRun_of_uncommitted rfl]
  simp [responseOf, hsent]

/-- While result bytes are left nothing joins the transcript; with the last one the command does. -/
theorem sameRun_awaitResult {n : Nat} {s : State} (hs : committed s = true)
    (hsent : n = 0 → s.sent = s.result) : SameRun s (awaitResult n s) := by
  unfold awaitResult
  split
  · next hn => exact sameRun_complete hs (hsent hn)
  · have ht : committed { s with phase := .out n } = true := rfl
    rw [SameRun, commandsRun_of_committed hs, commandsRun_of_committed ht,
      responsesRun_of_committed hs, responsesRun_of_committed ht]
    exact ⟨rfl, rfl⟩

/-- While the command is taken nothing has run. -/
theorem sameRun_awaitPayload (n : Nat) {s t : State} (hs : committed s = false)
    (htr : t.transcript = s.transcript) : SameRun s (awaitPayload n t) := by
  unfold awaitPayload
  split <;> exact sameRun_of_uncommitted hs rfl htr

/-- The transfers of an edge run no command: they only let a committed one join the transcript. -/
theorem sameRun_advance (pin : PortIn) {s : State} (h : PhaseInv s) : SameRun s (advance pin s) := by
  cases hp : s.phase with
  | idle =>
    rw [advance_idle pin hp]
    cases pin.cmd with
    | none => exact ⟨rfl, rfl⟩
    | some w => exact sameRun_awaitPayload (cwLen w) (by simp [committed, hp]) rfl
  | payload n =>
    rw [advance_payload pin hp]
    cases pin.inb with
    | none => exact ⟨rfl, rfl⟩
    | some b => exact sameRun_awaitPayload (n - 1) (by simp [committed, hp]) rfl
  | exec n =>
    rw [advance_exec pin hp]
    exact sameRun_of_uncommitted (by simp [committed, hp]) rfl rfl
  | resp =>
    obtain ⟨-, -, -, hrlen, -, -⟩ := (phaseInv_resp hp).mp h
    rw [advance_resp pin hp]
    split
    · refine sameRun_awaitResult (s := { s with sent := [] }) (by simp [committed, hp]) fun hn => ?_
      exact (List.length_eq_zero_iff.mp (hrlen.symm.trans hn)).symm
    · exact ⟨rfl, rfl⟩
  | out n =>
    obtain ⟨-, ⟨-, -, hrlen, -, -⟩, h0, hn, hsent⟩ := (phaseInv_out hp).mp h
    rw [advance_out pin hp]
    split
    · refine sameRun_awaitResult (s := { s with sent := s.sent ++ (outByte n s).toList })
        (by simp [committed, hp]) fun hlast => ?_
      have := take_append_outByte hrlen h0 hn
      simpa [hsent, hlast] using this
    · exact ⟨rfl, rfl⟩

/-! ## The link is kept -/

/-- The link speaks of the parameters, the architectural state and the record only. -/
theorem Simulates.congr {s t : State} (h : Simulates s) (hcfg : t.cfg = s.cfg)
    (ha : archOf t = archOf s) (hrun : SameRun s t) : Simulates t := by
  obtain ⟨s0, u, h0, hcfg0, hfold, harch⟩ := h
  obtain ⟨hcs, hrs⟩ := hrun
  exact ⟨s0, u, h0, hcfg0.trans hcfg.symm, by rw [hcs, hrs, hfold], harch.trans ha.symm⟩

/-- With nothing run yet, a state after reset is linked to itself. -/
theorem simulates_of_afterReset {s : State} (h : AfterReset s) (htr : s.transcript = [])
    (hc : committed s = false) : Simulates s :=
  ⟨s, s, h, rfl, by simp [commandsRun, responsesRun, htr, hc, runProgram], rfl⟩

/-- The command that leaves EXEC is the next one of the fold (R88, R91). -/
theorem Simulates.of_runLatched {s t : State} (h : Simulates s) (hs : committed s = false)
    (hrun : runLatched s = .next t) : Simulates { t with phase := .resp } := by
  obtain ⟨s0, u, h0, hcfg0, hfold, harch⟩ := h
  have hcfg : s.cfg = u.cfg := hcfg0.symm.trans (runProgram_cfg hfold).symm
  obtain ⟨v, hv, hvarch, hvresp⟩ :=
    transact_of_runLatched harch.symm (congrArg Config.sbox hcfg) hrun
  obtain ⟨htcfg, -, -, hcw, hpayload, -, -, -, -, htr, -⟩ := runLatched_sameTransport hrun
  have hcs : commandsRun { t with phase := .resp } = commandsRun s ++ [⟨s.cw, s.payload⟩] := by
    rw [commandsRun_of_committed rfl, commandsRun_of_uncommitted hs, htr, hcw, hpayload]
  have hrs : responsesRun { t with phase := .resp } = responsesRun s ++ [responseOf v] := by
    rw [responsesRun_of_committed rfl, responsesRun_of_uncommitted hs, hvresp, htr]
    rfl
  refine ⟨s0, v, h0, hcfg0.trans htcfg.symm, ?_, hvarch⟩
  rw [hcs, hrs]
  exact runProgram_append _ _ hfold (runProgram_cons hv rfl)

theorem Simulates.of_settle {s t : State} (h : Simulates s) (hsettle : settle s = .next t) :
    Simulates t := by
  obtain ⟨-, rfl⟩ | ⟨hp, u, hrun, rfl⟩ := settle_next hsettle
  · exact h
  · exact h.of_runLatched (by simp [committed, hp]) hrun

theorem simulates_resetEdge (s : State) : Simulates (resetEdge s) :=
  simulates_of_afterReset ⟨rfl, rfl, rfl⟩ rfl rfl

/-- Settles O52: a reset edge starts the fold anew; any other edge keeps the record, and then runs the
command that leaves EXEC, if one does. -/
theorem everyStepKeepsTheSimulation : Obligations.EveryStepKeepsTheSimulation := by
  rintro s t ⟨hphase, -⟩ hsim h
  cases hr : (nextInputs s).rst with
  | true =>
    rw [step_rst hr] at h
    cases h
    exact simulates_resetEdge _
  | false =>
    have hnoted : Simulates (noted s) := hsim.congr rfl rfl ⟨rfl, rfl⟩
    have hmoved : Simulates (afterTransfers s) :=
      hnoted.congr (advance_cfg ..) (archOf_advance ..) (sameRun_advance _ hphase)
    exact hmoved.of_settle (settle_of_step hr h)

/-! ## Runs from reset -/

/-- The state after reset, with any parameters and a host with any planned inputs. -/
theorem transportInv_reset (g : Config) (es : List PortIn) :
    TransportInv { State.reset with cfg := g, edges := es } :=
  ⟨phaseInv_idle rfl, Nat.zero_le 5⟩

theorem simulates_reset (g : Config) (es : List PortIn) :
    Simulates { State.reset with cfg := g, edges := es } :=
  simulates_of_afterReset ⟨rfl, rfl, rfl⟩ rfl rfl

/-- Settles O48: the reset state has the default parameters, and its host plans nothing. -/
theorem transportInvariantAtReset : Obligations.TransportInvariantAtReset :=
  transportInv_reset Config.default []

/-- Settles O51: at reset nothing has been run. -/
theorem simulationAtReset : Obligations.SimulationAtReset :=
  simulates_reset Config.default []

/-- What every step keeps holds along a run. -/
theorem invariant_of_run {M : Host.Core} {P : M.State → Prop}
    (hstep : ∀ s t, P s → M.step s = .next t → P t) {n : Nat} {s t : M.State} (hs : P s)
    (h : M.run n s = .next t) : P t := by
  induction n generalizing s with
  | zero => cases h; exact hs
  | succ n ih =>
    unfold Host.Core.run at h
    split at h
    · exact ih (hstep s _ hs ‹_›) h
    · cases h
    · cases h

/-- Settles O53: both invariants hold at reset and are kept by every step. -/
theorem portRunsFoldTheCommands : Obligations.PortRunsFoldTheCommands := by
  intro g es n s h
  refine invariant_of_run (M := Sys2Proof.core) (P := fun s => TransportInv s ∧ Simulates s) ?_
    ⟨transportInv_reset g es, simulates_reset g es⟩ h
  rintro s t ⟨hinv, hsim⟩ hst
  exact ⟨everyStepKeepsTheTransportInvariant s t hinv hst,
    everyStepKeepsTheSimulation s t hinv hsim hst⟩

end Sys2Proof.Machine
end

section
/-! SUPPORT. The form of a response (30_encoding.md R78, R79): how many result bytes a command gives. -/

namespace Sys2Proof.Machine

/-- The number of result bytes of a command that succeeds, by its OP (R79). -/
def resultLength (op : Nibble) : Nat :=
  if op = 5 ∨ op = 7 ∨ op = 8 then 4 else if op = 6 ∨ op = 9 then 8 else 0

theorem result_length_of_raise {c : Code} {op : Nibble} {s t : State} {n : Nat} (hc : c ≠ .ok)
    (h : raise c op s = .next t) : t.result.length = if rwCode t.rw ≠ 0 then 0 else n := by
  obtain ⟨hcode, -⟩ := failed_of_raise hc h
  rw [if_pos hcode]
  cases h
  rfl

theorem result_length_of_finish {op : Nibble} {r : List Byte} {s t : State}
    (h : finish op r s = .next t) :
    t.result.length = if rwCode t.rw ≠ 0 then 0 else r.length := by
  cases h
  exact (if_neg (not_not_intro (rwCode_responseWord ..))).symm

/-- A command that fails gives no result bytes; one that succeeds gives as many as its OP says. -/
theorem result_length_of_exec {i : Instr} {s t : State} (h : exec i s = .next t) :
    t.result.length = if rwCode t.rw ≠ 0 then 0 else resultLength i.op.code := by
  cases i with
  | nop | wrsched j w | subst w | rotl11 w => exact result_length_of_finish h
  | ldkey p =>
    simp only [exec, execLdkey] at h
    split at h
    · exact result_length_of_raise (by decide) h
    · exact result_length_of_finish h
  | derenc | derdec =>
    simp only [exec, execDerenc, execDerdec, derive] at h
    split at h
    · exact result_length_of_raise (by decide) h
    · exact result_length_of_finish h
  | rdsched j =>
    simp only [exec, execRdsched] at h
    split at h
    · exact result_length_of_raise (by decide) h
    · exact result_length_of_finish h
  | xform p =>
    simp only [exec, execXform] at h
    split_ifs at h
    · exact result_length_of_raise (by decide) h
    · exact result_length_of_raise (by decide) h
    · exact result_length_of_finish h
  | rdstat =>
    cases h
    exact (if_neg (not_not_intro (rwCode_responseWord ..))).symm

theorem result_length_of_runLatched {s t : State} (hlen : s.payload.length = cwLen s.cw)
    (h : runLatched s = .next t) :
    t.result.length = if rwCode t.rw ≠ 0 then 0 else resultLength (cwOp s.cw) := by
  obtain ⟨-, hrun⟩ | ⟨op, hl, hrun⟩ := runLatched_cases s hlen
  · rw [hrun] at h
    exact result_length_of_raise (by decide) h
  · rw [hrun] at h
    have hres := result_length_of_exec h
    rwa [op_assemble, op_code_of_lookup hl] at hres

/-- Settles O29: `ResponseInv` of the next state, and the number of its result bytes. -/
theorem responseFormat : Obligations.ResponseFormat := by
  intro c s hlen
  obtain ⟨t, ht⟩ := exists_runLatched (s := latch c s) hlen
  obtain ⟨-, -, -, hcw, -⟩ := runLatched_sameTransport ht
  obtain ⟨hres, hope, hrlen, -, hcode⟩ := responseInv_of_runLatched (s := latch c s) hlen ht
  rw [hcw] at hope
  exact ⟨t, ht, hres, hrlen, hope, hcode, result_length_of_runLatched hlen ht⟩

end Sys2Proof.Machine
end

section
/-! SUPPORT. Undoing the transform (42_transform.md R162, R167): each round is undone by the same round
with the halves swapped, so the reversed schedule undoes them all. -/

namespace Sys2Proof.Machine

/-! ## Rounds that all swap, and one swap at the end -/

def Halves.swap (h : Halves) : Halves := { a := h.b, b := h.a }

@[simp] theorem Halves.swap_swap (h : Halves) : h.swap.swap = h := rfl

/-- A round that swaps the halves (R162), for every round number. -/
def swapRound (sb : SBox) (h : Halves) (k : Word) : Halves :=
  { a := roundF sb h.a k ^^^ h.b, b := h.a }

theorem feistelRound_of_lt {r : Nat} (hr : r < 31) (sb : SBox) (k : Word) (h : Halves) :
    feistelRound sb r k h = swapRound sb h k := by
  simp [feistelRound, swapRound, hr]

/-- The last round does not swap (R163): that is a swap after a round that does. -/
theorem feistelRound_last (sb : SBox) (k : Word) (h : Halves) :
    feistelRound sb 31 k h = (swapRound sb h k).swap := by
  simp [feistelRound, swapRound, Halves.swap]

theorem roundKey_eq_getElem (ks : Schedule) {r : Nat} (hr : r < 32) : roundKey ks r = ks[r] := by
  simp [roundKey, hr]

theorem drop_eq_roundKey_cons (ks : Schedule) {r : Nat} (hr : r < 32) :
    ks.toList.drop r = roundKey ks r :: ks.toList.drop (r + 1) := by
  rw [roundKey_eq_getElem ks hr, List.drop_eq_getElem_cons (by simpa using hr), Vector.getElem_toList]

/-- The rounds from r on to the last: all swap, and the halves are swapped once more. -/
theorem rounds_to_last (sb : SBox) (ks : Schedule) {n r : Nat} (hr : r + n = 31) (h : Halves) :
    rounds sb ks (n + 1) r h = ((ks.toList.drop r).foldl (swapRound sb) h).swap := by
  induction n generalizing r h with
  | zero =>
    obtain rfl : r = 31 := hr
    have hnil : ks.toList.drop 32 = [] := List.drop_eq_nil_of_le (by simp)
    rw [rounds, rounds, feistelRound_last, drop_eq_roundKey_cons ks (by decide), hnil]
    rfl
  | succ n ih =>
    rw [rounds, feistelRound_of_lt (by omega), ih (by omega),
      drop_eq_roundKey_cons ks (r := r) (by omega), List.foldl_cons]

theorem transform_eq_foldl (sb : SBox) (p : List Byte) (ks : Schedule) :
    transform sb p ks = joinBlock (ks.toList.foldl (swapRound sb) (splitBlock p)).swap :=
  congrArg joinBlock (rounds_to_last sb ks (n := 31) rfl (splitBlock p))

/-! ## Undoing the rounds -/

/-- A round, a swap and the same round again are a swap: the round function cancels (R166). -/
theorem swapRound_swap_swapRound (sb : SBox) (h : Halves) (k : Word) :
    swapRound sb (swapRound sb h k).swap k = h.swap := by
  simp [swapRound, Halves.swap]

theorem foldl_swapRound_reverse (sb : SBox) (ks : List Word) (h : Halves) :
    ks.reverse.foldl (swapRound sb) (ks.foldl (swapRound sb) h).swap = h.swap := by
  induction ks generalizing h with
  | nil => rfl
  | cons k ks ih =>
    rw [List.reverse_cons, List.foldl_append, List.foldl_cons (l := ks), ih]
    exact swapRound_swap_swapRound sb h k

/-! ## Blocks (R52) -/

theorem splitBlock_joinBlock (h : Halves) : splitBlock (joinBlock h) = h := by
  have hb : be32 (joinBlock h) 0 = be32 (bytesBE32 h.b) 0 := rfl
  have ha : be32 (joinBlock h) 4 = be32 (bytesBE32 h.a) 0 := rfl
  rw [splitBlock, ha, hb, be32_bytesBE32, be32_bytesBE32]

theorem joinBlock_splitBlock {p : List Byte} (hp : p.length = 8) : joinBlock (splitBlock p) = p := by
  have h4 : (p.drop 4).length = 4 := by simp [hp]
  rw [joinBlock, splitBlock, bytesBE32_be32 (by omega), bytesBE32_be32 (by omega), List.drop_zero,
    List.take_of_length_le h4.le, List.take_append_drop]

/-- The reversed schedule undoes the transform (R167). -/
theorem transform_transform_of_reverse (sb : SBox) {ks ks' : Schedule}
    (hrev : ks'.toList = ks.toList.reverse) {p : List Byte} (hp : p.length = 8) :
    transform sb (transform sb p ks) ks' = p := by
  rw [transform_eq_foldl sb _ ks', transform_eq_foldl, splitBlock_joinBlock, hrev,
    foldl_swapRound_reverse, Halves.swap_swap, joinBlock_splitBlock hp]

/-- Entry by entry: what it is for one schedule to be the reverse of another (R112). -/
theorem toList_eq_reverse {ks ks' : Schedule} (h : ∀ i : Fin 32, ks'[i] = ks[31 - i.val]) :
    ks'.toList = ks.toList.reverse := by
  refine List.ext_getElem (by simp) fun j hj _ => ?_
  have hj : j < 32 := by simpa using hj
  simpa using h ⟨j, hj⟩

/-- The decryption schedule is the reversed encryption schedule (R112). -/
theorem decSched_getElem_eq (k : KeyWords) (i : Fin 32) :
    (decSched k)[i] = (encSched k)[31 - i.val] := by
  obtain ⟨i, hi⟩ := i
  simp only [decSched, encSched, Fin.getElem_fin, Vector.getElem_ofFn]
  split
  · rw [dif_neg (by omega)]
    exact getElem_congr_idx (by omega)
  · rw [dif_pos (by omega)]
    exact getElem_congr_idx (by omega)

end Sys2Proof.Machine
end

section
/-! SUPPORT. The pseudo-commands (30_encoding.md R83): ENCRYPT, DECRYPT and LDSCHED as programs. -/

namespace Sys2Proof.Machine

/-! ## Encoded commands, presented -/

/-- Only LDKEY writes KEY and KV (R37), and no command writes a parameter (R27). -/
theorem transact_encode_keeps {i : Instr} (hi : i.wf = true) (hne : ∀ p, i ≠ .ldkey p) {s t : State}
    (h : transact (encode i) s = .next t) : t.key = s.key ∧ t.kv = s.kv ∧ t.cfg = s.cfg := by
  have hcfg := transact_cfg h
  rw [transact_encode (decode_encode hi)] at h
  obtain ⟨hkey, hkv⟩ := exec_keeps_key_kv hne h
  exact ⟨hkey, hkv, hcfg⟩

/-- DERDEC with a key, presented: the decryption schedule is derived (R111). -/
theorem transact_derdec {s : State} (hkv : s.kv = true) :
    ∃ t : State, transact (encode .derdec) s = .next t
      ∧ t.sched = decSched s.key ∧ t.sv = BitVec.allOnes 32
      ∧ responseOf t = ⟨0x00000030#32, []⟩ := by
  rw [transact_encode (by decide), exec, execDerdec, derive, latch_kv, latch_key,
    if_neg (ne_false_of_eq_true hkv), deriveSched_derdec]
  exact ⟨_, rfl, rfl, rfl, congrArg (Response.mk · []) responseWord_derdec⟩

theorem wf_xform {p : List Byte} (hp : p.length = 8) : (Instr.xform p).wf = true := by
  simp [Instr.wf, payloadFits, hp]

/-- XFORM of a block with every entry valid, presented (R165). -/
theorem transact_xform {s : State} {p : List Byte} (hp : p.length = 8)
    (hsv : s.sv = BitVec.allOnes 32) :
    ∃ t : State, transact (encode (.xform p)) s = .next t
      ∧ responseOf t = ⟨0x00000860#32, transform s.cfg.sbox p s.sched⟩ := by
  have hall : svAll (latch (encode (.xform p)) s) = true := by simp [svAll, hsv]
  rw [transact_encode (decode_encode (wf_xform hp)), exec, execXform, if_neg (not_not_intro hp),
    if_neg (ne_false_of_eq_true hall)]
  exact ⟨_, rfl, congrArg (Response.mk · _) responseWord_xform⟩

/-- A command that leaves the schedule `ks`, and then XFORM: the form of ENCRYPT and of DECRYPT. -/
theorem runProgram_derive_xform {i : Instr} {w : Word} {ks : Schedule} {s t : State}
    {p : List Byte} (hi : i.wf = true) (hne : ∀ p, i ≠ .ldkey p) (hp : p.length = 8)
    (ht : transact (encode i) s = .next t) (hsched : t.sched = ks)
    (hsv : t.sv = BitVec.allOnes 32) (hresp : responseOf t = ⟨w, []⟩) :
    ∃ u, runProgram ([i, .xform p].map encode) s
        = .next (u, [⟨w, []⟩, ⟨0x00000860#32, transform s.cfg.sbox p ks⟩])
      ∧ u.key = s.key ∧ u.kv = s.kv ∧ u.cfg = s.cfg := by
  obtain ⟨hkey, hkv, hcfg⟩ := transact_encode_keeps hi hne ht
  obtain ⟨u, hu, hresp'⟩ := transact_xform hp hsv
  obtain ⟨hkey', hkv', hcfg'⟩ := transact_encode_keeps (wf_xform hp) (by simp) hu
  rw [hsched, hcfg] at hresp'
  refine ⟨u, ?_, hkey'.trans hkey, hkv'.trans hkv, hcfg'.trans hcfg⟩
  rw [← hresp, ← hresp']
  exact runProgram_cons ht (runProgram_cons hu rfl)

/-- Settles O35: DERDEC's schedule is the reverse of DERENC's, and undoes its transform. -/
theorem encryptThenDecryptIsIdentity : Obligations.EncryptThenDecryptIsIdentity := by
  intro s p hkv hp
  obtain ⟨s1, h1, hsched1, hsv1, hr1⟩ := transact_derenc hkv
  obtain ⟨t, ht, hkey, hkvt, hcfg⟩ :=
    runProgram_derive_xform rfl (by simp) hp h1 hsched1 hsv1 hr1
  obtain ⟨t1, h2, hsched2, hsv2, hr2⟩ := transact_derdec (hkvt.trans hkv)
  have hc : (transform s.cfg.sbox p (encSched s.key)).length = 8 := transform_length ..
  obtain ⟨u, hu, -⟩ := runProgram_derive_xform rfl (by simp) hc h2 hsched2 hsv2 hr2
  have hback := transform_transform_of_reverse s.cfg.sbox
    (toList_eq_reverse (decSched_getElem_eq s.key)) hp
  rw [hcfg, hkey, hback] at hu
  exact ⟨t, u, _, ht, hu⟩

/-! ## LDSCHED -/

/-- WRSCHED, presented: one entry, its valid bit and LAST change (R113). -/
theorem transact_wrsched (i : Fin 32) (w : Word) (s : State) :
    ∃ t, transact (encode (.wrsched i w)) s = .next t ∧ responseOf t = ⟨0x00000040#32, []⟩
      ∧ archOf t = { archOf s with sched := s.sched.set i w, sv := markValid i s.sv, last := 0 } :=
  ⟨_, transact_encode (decode_encode rfl) s, congrArg (Response.mk · []) responseWord_wrsched, rfl⟩

/-- The entries in `l` are loaded from `ws`, and the others are as they were (R83, R113). -/
structure Loaded (ws : Schedule) (l : List (Fin 32)) (s t : State) : Prop where
  sched : ∀ j : Fin 32, t.sched[j] = if j ∈ l then ws[j] else s.sched[j]
  valid : ∀ j : Fin 32, schedValid t j = (decide (j ∈ l) || schedValid s j)
  key : t.key = s.key
  kv : t.kv = s.kv
  last : t.last = if l = [] then s.last else 0

theorem runProgram_wrscheds (ws : Schedule) (l : List (Fin 32)) (s : State) :
    ∃ t, runProgram ((l.map fun i => .wrsched i ws[i]).map encode) s
        = .next (t, List.replicate l.length ⟨0x00000040#32, []⟩)
      ∧ Loaded ws l s t := by
  induction l generalizing s with
  | nil => exact ⟨s, rfl, by simp, by simp, rfl, rfl, rfl⟩
  | cons i l ih =>
    obtain ⟨u, hu, hresp, harch⟩ := transact_wrsched i ws[i] s
    obtain ⟨t, ht, hl⟩ := ih u
    have hsched : u.sched = s.sched.set i ws[i] := congrArg Arch.sched harch
    have hsv : u.sv = markValid i s.sv := congrArg Arch.sv harch
    have hlast : u.last = 0 := congrArg Arch.last harch
    refine ⟨t, ?_, ?_, ?_, hl.key.trans (congrArg Arch.key harch),
      hl.kv.trans (congrArg Arch.kv harch), ?_⟩
    · rw [List.length_cons, List.replicate_succ]
      have hrun := runProgram_cons hu ht
      rwa [hresp] at hrun
    · intro j
      rw [hl.sched, hsched]
      by_cases hj : j = i
      · simp [hj]
      · have hij : i.val ≠ j.val := fun e => hj (Fin.ext e.symm)
        simp [hj, hij]
    · intro j
      rw [hl.valid, schedValid, schedValid, hsv, getLsbD_markValid]
      simp [Bool.or_assoc, Bool.or_left_comm]
    · rw [hl.last, hlast, ite_self, if_neg (List.cons_ne_nil i l)]

/-- Settles O36: all 32 entries are loaded. -/
theorem ldschedLoadsTheWholeSchedule : Obligations.LdschedLoadsTheWholeSchedule := by
  intro ws s
  obtain ⟨t, ht, hl⟩ := runProgram_wrscheds ws (List.finRange 32) s
  refine ⟨t, ht, ?_, ?_, hl.key, hl.kv, hl.last⟩
  · refine Vector.ext fun j hj => ?_
    simpa using hl.sched ⟨j, hj⟩
  · refine BitVec.eq_of_getLsbD_eq fun j hj => ?_
    have hvalid : t.sv.getLsbD j = true := by simpa [schedValid, hj] using hl.valid ⟨j, hj⟩
    rw [hvalid, BitVec.getLsbD_allOnes, decide_eq_true hj]

end Sys2Proof.Machine
end

section
/-! SUPPORT. The key schedule (40_key_schedule.md): the order in which the key words stand in each schedule
(R105 to R107, R110, R112), the rows of the key commands in the opcode map (R76), and what each of them
writes. -/

namespace Sys2Proof.Machine

/-! ## Which key word stands where (R105, R107, R110) -/

/-- The key word at each entry of the encryption schedule (R105). -/
def encKeyIndex (r : Fin 32) : Fin 8 :=
  if h : r.val < 24 then ⟨r.val % 8, by omega⟩ else ⟨31 - r.val, by omega⟩

/-- The key word at each entry of the decryption schedule: the encryption order reversed (R112). -/
def decKeyIndex (r : Fin 32) : Fin 8 := encKeyIndex r.rev

theorem encSched_getElem (k : KeyWords) (r : Fin 32) : (encSched k)[r] = k[encKeyIndex r] := by
  simp only [encSched, encKeyIndex, Fin.getElem_fin, Vector.getElem_ofFn]
  split <;> rfl

theorem decSched_getElem (k : KeyWords) (r : Fin 32) : (decSched k)[r] = k[decKeyIndex r] := by
  have hrev : 31 - r.val = r.rev.val := by
    rw [Fin.val_rev]
    omega
  calc (decSched k)[r] = (encSched k)[31 - r.val] := decSched_getElem_eq k r
    _ = (encSched k)[r.rev] := getElem_congr_idx hrev
    _ = k[decKeyIndex r] := encSched_getElem k r.rev

/-- Settles O25: the arrangements are `encKeyIndex` and `decKeyIndex`; the counts are computed. -/
theorem scheduleEntriesAreKeyWords : Obligations.ScheduleEntriesAreKeyWords :=
  ⟨⟨encKeyIndex, encSched_getElem, by decide⟩, ⟨decKeyIndex, decSched_getElem, by decide⟩⟩

/-- Settles O24: entry by entry. -/
theorem scheduleReversal : Obligations.ScheduleReversal := decSched_getElem_eq

/-! ## The zero key (R169) -/

theorem encSched_replicate (w : Word) :
    encSched (Vector.replicate 8 w) = Vector.replicate 32 w := by
  refine Vector.ext fun r hr => ?_
  simpa using encSched_getElem (Vector.replicate 8 w) ⟨r, hr⟩

theorem decSched_replicate (w : Word) :
    decSched (Vector.replicate 8 w) = Vector.replicate 32 w := by
  refine Vector.ext fun r hr => ?_
  simpa using decSched_getElem (Vector.replicate 8 w) ⟨r, hr⟩

/-- Settles O26: both schedules repeat the one word of the zero key, so both runs transform under the
same schedule; the stated block is computed. -/
theorem zeroKeyIsNotSpecial : Obligations.ZeroKeyIsNotSpecial := by
  refine ⟨encSched_replicate 0, decSched_replicate 0, ?_, by decide +kernel⟩
  intro s p hkv hkey hp
  obtain ⟨t1, ht1, hsched, hsv, hresp⟩ := transact_derenc hkv
  obtain ⟨u1, hu1, hsched', hsv', hresp'⟩ := transact_derdec hkv
  rw [hkey, encSched_replicate] at hsched
  rw [hkey, decSched_replicate] at hsched'
  obtain ⟨t, ht, -⟩ := runProgram_derive_xform rfl (by simp) hp ht1 hsched hsv hresp
  obtain ⟨u, hu, -⟩ := runProgram_derive_xform rfl (by simp) hp hu1 hsched' hsv' hresp'
  exact ⟨t, u, _, ht, hu⟩

/-! ## A stale schedule (R103, R235) -/

/-- XFORM reads the S-box, SCHED and SV only, never KEY or KV (R165). -/
theorem exec_xform_response_congr (q : List Byte) {s t : State} (hcfg : t.cfg = s.cfg)
    (hsched : t.sched = s.sched) (hsv : t.sv = s.sv) :
    ∃ u v, exec (.xform q) s = .next u ∧ exec (.xform q) t = .next v
      ∧ responseOf v = responseOf u := by
  have hall : svAll t = svAll s := by rw [svAll, svAll, hsv]
  simp only [exec, execXform, hcfg, hsched, hall]
  by_cases hq : q.length ≠ 8
  · simp only [if_pos hq]
    exact ⟨_, _, raise_eq .., raise_eq .., rfl⟩
  · simp only [if_neg hq]
    cases svAll s with
    | false => exact ⟨_, _, raise_eq .., raise_eq .., rfl⟩
    | true => exact ⟨_, _, finish_eq .., finish_eq .., rfl⟩

/-- Settles O37: LDKEY writes nothing that XFORM reads. -/
theorem staleScheduleSurvivesLdkey : Obligations.StaleScheduleSurvivesLdkey := by
  intro p q s
  obtain ⟨_, _, _, _, _, _, ht, -, -⟩ := exec_form (.ldkey p) s
  obtain ⟨hcfg, -⟩ := exec_sameTransport ht
  obtain ⟨hsched, hsv⟩ := exec_keeps_sched_sv (by simp) (by simp) (by simp) ht
  obtain ⟨u, v, hu, hv, hresp⟩ := exec_xform_response_congr q hcfg hsched hsv
  exact ⟨_, u, v, ht, hu, hv, hresp⟩

/-! ## The rows of the opcode map as decoding rules (R75 to R77) -/

/-- What decodes to an instruction of the row `r`: a word the row matches, with LEN payload bytes. -/
theorem decode_ok_iff_of_row {r : Row} (hr : r ∈ opTable) {i : Instr} (hi : i.op = r.op) (cw : Word)
    (p : List Byte) : decode cw p = .ok i
      ↔ cw &&& r.mask = r.mtch ∧ p.length = cwLen cw ∧ i = assemble r.op cw p := by
  rw [decode_ok_iff, and_mask_eq_iff_fits hr, ← lookup_eq_some_iff]
  constructor
  · rintro ⟨op, hl, hp, rfl⟩
    rw [op_assemble] at hi
    subst hi
    exact ⟨hl, hp, rfl⟩
  · rintro ⟨hl, hp, rfl⟩
    exact ⟨r.op, hl, hp, rfl⟩

/-- Where the row fixes LEN, the payload has that length. -/
theorem decode_ok_iff_of_fixedLen {r : Row} (hr : r ∈ opTable) {n : Byte}
    (hn : r.op.fixedLen = some n) {i : Instr} (hi : i.op = r.op) (cw : Word) (p : List Byte) :
    decode cw p = .ok i
      ↔ cw &&& r.mask = r.mtch ∧ p.length = n.toNat ∧ i = assemble r.op cw p := by
  rw [decode_ok_iff_of_row hr hi]
  refine and_congr_right fun hm => and_congr_left fun _ => ?_
  obtain ⟨-, hlen, -⟩ := (and_mask_eq_iff_fits hr cw).mp hm
  rw [cwLen, hlen n hn]

/-- A row that fixes every bit of CW and has no payload. -/
theorem decode_ok_iff_of_word {op : Op} {m : Word} (hr : ⟨op, m, 0xFFFFFFFF#32⟩ ∈ opTable)
    (hn : op.fixedLen = some 0#8) {i : Instr} (hi : ∀ cw p, assemble op cw p = i) (cw : Word)
    (p : List Byte) : decode cw p = .ok i ↔ cw = m ∧ p = [] := by
  have hop : i.op = op := hi cw p ▸ op_assemble ..
  have hmask : cw &&& 0xFFFFFFFF#32 = cw := BitVec.and_allOnes
  rw [decode_ok_iff_of_fixedLen hr hn hop, hmask, hi]
  simp

/-- A word with the OP of the row `r` that the row does not match is illegal (R80, R203). -/
theorem decode_illegal_of_row {r : Row} (hr : r ∈ opTable) {cw : Word}
    (hop : cw.extractLsb' 0 4 = r.op.code) (hm : cw &&& r.mask ≠ r.mtch) (p : List Byte) :
    decode cw p = .error .illegalCommand := by
  rw [decode_illegal_iff, lookup_eq_none_iff_of_code hop.symm, ← and_mask_eq_iff_fits hr]
  exact hm

/-! ## LDKEY -/

/-- Settles O10: the length check decides, and the row leaves LEN free. -/
theorem ldkeyLoadsKey : Obligations.LdkeyLoadsKey := by
  refine ⟨fun p s hp => ?_, fun p s hp => ?_, fun cw p q => ?_⟩
  · rw [exec, execLdkey, if_neg (not_not_intro hp), finish_eq, List.length_nil, responseWord_ldkey]
    rfl
  · rw [exec, execLdkey, if_pos hp, raise_eq]
    rfl
  · rw [decode_ok_iff_of_row (r := ⟨.ldkey, 0x00000001#32, 0xFF00FFFF#32⟩) (by decide) rfl]
    simp [assemble, cwLen]

/-! ## DERENC and DERDEC -/

/-- With a key, the schedule of the direction is derived (R106, R111). -/
theorem derive_of_kv {op : Op} {s : State} (hkv : s.kv = true) :
    derive op s = .next { s with
      sched := deriveSched s.key (op.code.getLsbD 0), sv := BitVec.allOnes 32
      last := 0, rw := responseWord .ok op.code 0, result := [] } := by
  rw [derive, if_neg (ne_false_of_eq_true hkv), finish_eq]
  rfl

/-- Without a key nothing is derived (R106, R111). -/
theorem derive_of_no_kv {op : Op} {s : State} (hkv : s.kv = false) :
    derive op s = .next { s with last := 4, rw := responseWord .noKey op.code 0, result := [] } := by
  rw [derive, if_pos hkv, raise_eq]
  rfl

/-- Settles O11: KV decides, and the schedule is `encSched`. -/
theorem derencBuildsEncryptionSchedule : Obligations.DerencBuildsEncryptionSchedule := by
  refine ⟨fun s hkv => ⟨encSched s.key, fun r hr => ?_, fun r hr hr' => ?_, ?_⟩, fun s hkv => ?_, ?_⟩
  · simp [encSched, hr]
  · simp [encSched, hr'.not_gt]
  · rw [exec, execDerenc, derive_of_kv hkv, deriveSched_derenc, responseWord_derenc]
  · rw [exec, execDerenc, derive_of_no_kv hkv]
    rfl
  · exact decode_ok_iff_of_word (op := .derenc) (by decide) rfl fun _ _ => rfl

/-- Settles O12: KV decides, and the schedule is `decSched`. -/
theorem derdecBuildsDecryptionSchedule : Obligations.DerdecBuildsDecryptionSchedule := by
  refine ⟨fun s hkv => ⟨decSched s.key, fun r hr => ?_, fun r hr => ?_, ?_⟩, fun s hkv => ?_, ?_⟩
  · simp [decSched, hr]
  · simp [decSched, hr.not_gt]
  · rw [exec, execDerdec, derive_of_kv hkv, deriveSched_derdec, responseWord_derdec]
  · rw [exec, execDerdec, derive_of_no_kv hkv]
    rfl
  · exact decode_ok_iff_of_word (op := .derdec) (by decide) rfl fun _ _ => rfl

/-! ## WRSCHED and RDSCHED -/

theorem getElem_set_sched (ws : Schedule) (i j : Fin 32) (w : Word) :
    (ws.set i w)[j] = if j = i then w else ws[j] := by
  simp [Vector.getElem_set, Fin.ext_iff, eq_comm]

/-- The IDX operand is CW[12:8] (R72). -/
theorem eq_cwIdx_iff (i : Fin 32) (cw : Word) :
    i = cwIdx cw ↔ i.val = (cw.extractLsb' 8 5).toNat := Fin.ext_iff

/-- Settles O13: WRSCHED never fails; it writes what `writeSched` writes. -/
theorem wrschedWritesOneEntry : Obligations.WrschedWritesOneEntry := by
  have hrow : ⟨.wrsched, 0x00040004#32, 0xFFFFE0FF#32⟩ ∈ opTable := by decide
  refine ⟨fun i w s => ⟨s.sched.set i w, markValid i s.sv, fun j => ?_, fun j => ?_, ?_⟩,
    fun cw p i w => ?_, fun cw p hop hm => decode_illegal_of_row hrow hop hm p⟩
  · exact getElem_set_sched ..
  · rw [getLsbD_markValid]
    by_cases hj : j = i <;> simp [hj]
  · rw [exec, execWrsched, finish_eq, List.length_nil, responseWord_wrsched]
    rfl
  · rw [decode_ok_iff_of_fixedLen hrow (n := 4#8) rfl rfl]
    simp [assemble, eq_cwIdx_iff]

/-- Settles O14: the entry's valid bit decides. -/
theorem rdschedReadsOneEntry : Obligations.RdschedReadsOneEntry := by
  refine ⟨fun i s hv => ?_, fun i s hv => ?_, fun cw p i => ?_⟩
  · rw [exec, execRdsched, schedValid, if_neg (ne_false_of_eq_true hv), finish_eq, bytesBE32_length,
      responseWord_rdsched]
    rfl
  · rw [exec, execRdsched, schedValid, if_pos hv, raise_eq]
    rfl
  · rw [decode_ok_iff_of_fixedLen (r := ⟨.rdsched, 0x00000005#32, 0xFFFFE0FF#32⟩) (by decide)
      (n := 0#8) rfl rfl]
    simp [assemble, eq_cwIdx_iff]

end Sys2Proof.Machine
end

section
/-! SUPPORT. The substitution unit and the rotator (41_substitution.md): nibble i of a word passes through
column i of the S-box alone (R143), the rotator moves every bit by eleven (R147, R148), and SUBST and ROTL11
give these functions of their word (R146, R147). -/

namespace Sys2Proof.Machine

/-! ## The substitution, nibble by nibble (R140, R143) -/

theorem nib_or (v w : Word) (i : Fin 8) : nib (v ||| w) i = nib v i ||| nib w i :=
  BitVec.extractLsb'_or

/-- Lane i stands in nibble i, and leaves every other nibble 0. -/
theorem nib_substLane (sb : SBox) (w : Word) (i j : Fin 8) :
    nib (substLane sb w i) j = if j = i then sboxEntry sb (nib w j) j else 0 := by
  split
  next h =>
    subst h
    exact extractLsb'_shifted_same _ (by omega)
  next h => exact extractLsb'_shifted_other _ (by omega)

/-- Lanes or-ed into `r` reach the nibbles they stand for, and no other. -/
theorem nib_foldl_substLane (sb : SBox) (w : Word) (l : List (Fin 8)) (r : Word) (j : Fin 8) :
    nib (l.foldl (fun r i => r ||| substLane sb w i) r) j
      = nib r j ||| if j ∈ l then sboxEntry sb (nib w j) j else 0 := by
  induction l generalizing r with
  | nil => simp
  | cons i l ih =>
    rw [List.foldl_cons, ih, nib_or, nib_substLane, BitVec.or_assoc]
    by_cases hi : j = i
    · subst hi
      by_cases hl : j ∈ l <;> simp [hl]
    · simp [hi]

/-- Output nibble i is the S-box entry of input nibble i (R143). -/
theorem nib_substitute (sb : SBox) (w : Word) (i : Fin 8) :
    nib (substitute sb w) i = sboxEntry sb (nib w i) i := by
  have hmem : ∀ i : Fin 8, i ∈ ([0, 1, 2, 3, 4, 5, 6, 7] : List (Fin 8)) := by decide
  have hzero : nib 0 i = 0 := BitVec.extractLsb'_zero
  rw [substitute, nib_foldl_substLane, if_pos (hmem i), hzero]
  exact BitVec.zero_or

/-- Settles O19: `nib_substitute`, with the nibble named. -/
theorem substitutionIsPositionPreserving : Obligations.SubstitutionIsPositionPreserving := by
  rintro sb w i _ rfl
  exact nib_substitute sb w i

/-! ## The default table (R142, R144) -/

/-- A word is its eight nibbles: bit k is bit k mod 4 of nibble k / 4. -/
theorem eq_of_nib_eq {v w : Word} (h : ∀ i, nib v i = nib w i) : v = w := by
  have bit (x : Word) {k : Nat} (hk : k < 32) :
      x.getLsbD k = (nib x ⟨k / 4, by omega⟩).getLsbD (k % 4) := by
    rw [nib, BitVec.getLsbD_extractLsb', decide_eq_true (Nat.mod_lt k (by decide)), Bool.true_and,
      Nat.div_add_mod]
  refine BitVec.eq_of_getLsbD_eq fun k hk => ?_
  rw [bit v hk, bit w hk, h]

/-- Where no column of the S-box repeats an entry, the substitution loses nothing. -/
theorem substitute_injective {sb : SBox} (h : ∀ i, Function.Injective (sboxEntry sb · i)) :
    Function.Injective (substitute sb) := by
  intro v w hvw
  refine eq_of_nib_eq fun i => h i ?_
  show sboxEntry sb (nib v i) i = sboxEntry sb (nib w i) i
  rw [← nib_substitute, ← nib_substitute, hvw]

/-- No column of the default table repeats an entry (R142). -/
theorem defaultSBox_column_injective (i : Fin 8) :
    Function.Injective (sboxEntry defaultSBox · i) := by
  have hcolumns : ∀ (i : Fin 8) (x y : Nibble),
      sboxEntry defaultSBox x i = sboxEntry defaultSBox y i → x = y := by decide
  exact hcolumns i

/-- Settles O20: an injection of the finite set of words into itself is a bijection. -/
theorem defaultSubstitutionIsBijective : Obligations.DefaultSubstitutionIsBijective :=
  (substitute_injective defaultSBox_column_injective).bijective_of_finite

/-! ## The rotator, bit by bit (R147, R148) -/

/-- Output bit j is input bit (j - 11) mod 32 (R147). -/
theorem getLsbD_rotl11 (w : Word) {j : Nat} (hj : j < 32) :
    (rotl11 w).getLsbD j = w.getLsbD ((j + 21) % 32) := by
  rw [rotl11, rotl32, if_neg (by decide), BitVec.getLsbD_or, BitVec.getLsbD_shiftLeft,
    BitVec.getLsbD_ushiftRight]
  by_cases h : j < 11
  · have hmod : (j + 21) % 32 = 32 - 11 + j := by omega
    simp [h, hmod]
  · have hmod : (j + 21) % 32 = j - 11 := by omega
    have hhigh : w.getLsbD (32 - 11 + j) = false := BitVec.getLsbD_of_ge _ _ (by omega)
    rw [hhigh, hmod]
    simp [h, hj]

/-- n rotations move every bit by 11 n. -/
theorem getLsbD_iterate_rotl11 (n : Nat) (w : Word) {j : Nat} (hj : j < 32) :
    (rotl11^[n] w).getLsbD j = w.getLsbD ((j + 21 * n) % 32) := by
  induction n generalizing j with
  | zero => rw [Function.iterate_zero_apply, Nat.mul_zero, Nat.add_zero, Nat.mod_eq_of_lt hj]
  | succ n ih =>
    rw [Function.iterate_succ_apply', getLsbD_rotl11 _ hj, ih (Nat.mod_lt _ (by decide)),
      Nat.mod_add_mod, Nat.add_assoc, Nat.mul_succ, Nat.add_comm 21]

/-- 32 rotations are none: 11 * 32 is a multiple of 32. -/
theorem iterate_rotl11_32 (w : Word) : rotl11^[32] w = w := by
  refine BitVec.eq_of_getLsbD_eq fun j hj => ?_
  rw [getLsbD_iterate_rotl11 32 w hj, Nat.add_mul_mod_self_right, Nat.mod_eq_of_lt hj]

/-- Fewer rotations take bit 0 away from bit 0: 11 is odd. -/
theorem iterate_rotl11_one_ne {n : Nat} (h0 : 0 < n) (hn : n < 32) : rotl11^[n] 1#32 ≠ 1#32 := by
  intro h
  have hbit := getLsbD_iterate_rotl11 n 1#32 (j := 0) (by decide)
  have hmod : (0 + 21 * n) % 32 ≠ 0 := by omega
  rw [h, BitVec.getLsbD_one, BitVec.getLsbD_one, decide_eq_false hmod] at hbit
  exact absurd hbit (by decide)

/-! ## SUBST and ROTL11 -/

theorem and_fullMask (cw : Word) : cw &&& 0xFFFFFFFF#32 = cw := BitVec.and_allOnes

/-- A row that fixes every bit of CW and takes one word as its operand (R77). -/
theorem decode_ok_iff_of_word_operand {op : Op} {m : Word} (hr : ⟨op, m, 0xFFFFFFFF#32⟩ ∈ opTable)
    (hn : op.fixedLen = some 4#8) {f : Word → Instr} (hinj : f.Injective)
    (hf : ∀ cw p, assemble op cw p = f (be32 p 0)) (cw : Word) (p : List Byte) (w : Word) :
    decode cw p = .ok (f w) ↔ cw = m ∧ p.length = 4 ∧ w = be32 p 0 := by
  have hop : (f w).op = op := by
    rw [← be32_bytesBE32 w, ← hf 0 (bytesBE32 w), op_assemble]
  rw [decode_ok_iff_of_fixedLen hr hn hop, and_fullMask, hf, hinj.eq_iff]
  rfl

/-- Beside the one word of such a row, every word with its OP is illegal (R80). -/
theorem decode_illegal_of_ne_word {op : Op} {m : Word} (hr : ⟨op, m, 0xFFFFFFFF#32⟩ ∈ opTable)
    (cw : Word) (p : List Byte) (hop : cw.extractLsb' 0 4 = op.code) (hne : cw ≠ m) :
    decode cw p = .error .illegalCommand :=
  decode_illegal_of_row hr hop (by rwa [and_fullMask]) p

/-- Settles O16: SUBST never fails, and its row fixes every bit of CW. -/
theorem substReturnsSubstitution : Obligations.SubstReturnsSubstitution := by
  have hrow : ⟨.subst, 0x00040007#32, 0xFFFFFFFF#32⟩ ∈ opTable := by decide
  have hinj : Function.Injective Instr.subst := fun _ _ => Instr.subst.inj
  refine ⟨fun w s => ?_, decode_ok_iff_of_word_operand hrow rfl hinj fun _ _ => rfl,
    decode_illegal_of_ne_word hrow⟩
  rw [exec, execSubst, finish_eq, bytesBE32_length, responseWord_subst]

/-- Settles O17: ROTL11 never fails, and its row fixes every bit of CW; the word 1 shows that fewer
than 32 rotations do not return every word. -/
theorem rotl11RotatesByEleven : Obligations.Rotl11RotatesByEleven := by
  have hrow : ⟨.rotl11, 0x00040008#32, 0xFFFFFFFF#32⟩ ∈ opTable := by decide
  have hinj : Function.Injective Instr.rotl11 := fun _ _ => Instr.rotl11.inj
  refine ⟨fun w s => ⟨rotl11 w, fun j => getLsbD_rotl11 w j.isLt, ?_⟩, iterate_rotl11_32,
    fun n h0 hn => ⟨1#32, iterate_rotl11_one_ne h0 hn⟩,
    decode_ok_iff_of_word_operand hrow rfl hinj fun _ _ => rfl, decode_illegal_of_ne_word hrow⟩
  rw [exec, execRotl11, finish_eq, bytesBE32_length, responseWord_rotl11]

end Sys2Proof.Machine
end

section
/-! SUPPORT. The block transform (42_transform.md): its rounds one after another (R162) and in groups
(R170), its inverse (R167), and the command XFORM (R165). -/

namespace Sys2Proof.Machine

/-! ## Rounds in groups (R170) -/

theorem rounds_add (sb : SBox) (ks : Schedule) (m n r : Nat) (h : Halves) :
    rounds sb ks (m + n) r h = rounds sb ks n (r + m) (rounds sb ks m r h) := by
  induction m generalizing r h with
  | zero => rw [Nat.zero_add, Nat.add_zero, rounds]
  | succ m ih => rw [Nat.succ_add, rounds, rounds, ih, Nat.succ_add_eq_add_succ]

/-- Settles O22: by induction on the first group, since a round is given its number alone. -/
theorem roundsMayBeGrouped : Obligations.RoundsMayBeGrouped := rounds_add

/-! ## Round by round (R162) -/

/-- The halves after r rounds from round 0 on. -/
def halvesAfter (sb : SBox) (p : List Byte) (ks : Schedule) (r : Nat) : Halves :=
  rounds sb ks r 0 (splitBlock p)

theorem transform_eq_halvesAfter (sb : SBox) (p : List Byte) (ks : Schedule) :
    transform sb p ks = joinBlock (halvesAfter sb p ks 32) := rfl

theorem halvesAfter_succ (sb : SBox) (p : List Byte) (ks : Schedule) {r : Nat} (hr : r < 32) :
    halvesAfter sb p ks (r + 1) = feistelRound sb r ks[r] (halvesAfter sb p ks r) := by
  rw [halvesAfter, rounds_add, Nat.zero_add, rounds, rounds, roundKey_eq_getElem ks hr, halvesAfter]

/-- Settles O21: a(r) and b(r) are the halves after r rounds. -/
theorem transformFollowsRounds : Obligations.TransformFollowsRounds := by
  intro sb p ks
  refine ⟨fun r => (halvesAfter sb p ks r).a, fun r => (halvesAfter sb p ks r).b, rfl, rfl,
    fun r hr => ?_, ?_, transform_eq_halvesAfter sb p ks⟩
  · simp only [halvesAfter_succ sb p ks (r := r) (by omega), feistelRound_of_lt hr]
    exact ⟨rfl, rfl⟩
  · simp only [halvesAfter_succ sb p ks (r := 31) (by decide), feistelRound_last]
    exact ⟨rfl, rfl⟩

/-! ## The reversed schedule (R167) -/

/-- Settles O23: the reversed schedule undoes the rounds, and the decryption schedule is the reversed
encryption schedule (R112). -/
theorem transformRoundTrip : Obligations.TransformRoundTrip :=
  ⟨fun sb _ _ _ hp hrev => transform_transform_of_reverse sb (toList_eq_reverse hrev) hp,
    fun sb k _ hp =>
      transform_transform_of_reverse sb (toList_eq_reverse (decSched_getElem_eq k)) hp⟩

/-! ## XFORM (R165, R202) -/

theorem svAll_eq_false {s : State} {i : Fin 32} (hi : s.sv.getLsbD i.val = false) :
    svAll s = false := by
  refine eq_false_of_ne_true fun hall => ?_
  exact absurd ((svAll_iff s).mp hall i) (ne_true_of_eq_false hi)

/-- Settles O15: the block's length decides, then SVALL; the row leaves LEN free. -/
theorem xformTransformsBlock : Obligations.XformTransformsBlock := by
  refine ⟨fun p s hp hsv => ?_, fun p s hp => ?_, fun p s i hp hi => ?_, fun cw p q => ?_⟩
  · have hall : svAll s = true := (svAll_iff s).mpr hsv
    rw [exec, execXform, if_neg (not_not_intro hp), if_neg (ne_false_of_eq_true hall), finish_eq,
      transform_length, responseWord_xform]
  · rw [exec, execXform, if_pos hp, raise_eq]
    rfl
  · rw [exec, execXform, if_neg (not_not_intro hp), if_pos (svAll_eq_false hi), raise_eq]
    rfl
  · rw [decode_ok_iff_of_row (r := ⟨.xform, 0x00000006#32, 0xFF00FFFF#32⟩) (by decide) rfl]
    simp [assemble, cwLen]

end Sys2Proof.Machine
end

section
/-! SUPPORT. The control commands (43_control.md): NOP clears LAST (R190), and RDSTAT reads STATUS, field by
field (R32), and SVMASK (R33) without writing anything (R191). -/

namespace Sys2Proof.Machine

/-! ## NOP (R190) -/

/-- Settles O9: NOP ends with no result bytes, and its row fixes every bit of CW. -/
theorem nopReportsOk : Obligations.NopReportsOk := by
  have hrow : ⟨.nop, 0x00000000#32, 0xFFFFFFFF#32⟩ ∈ opTable := by decide
  refine ⟨fun s => ?_, decode_ok_iff_of_word hrow rfl fun _ _ => rfl, decode_illegal_of_ne_word hrow⟩
  rw [exec, execNop, finish_eq, List.length_nil, responseWord_nop]

/-! ## RDSTAT (R32, R33, R191) -/

/-- The fields of STATUS: KV, SVALL and LAST at their places, and zeros between and above (R32). -/
theorem statusWord_fields (s : State) :
    (statusWord s).extractLsb' 0 1 = BitVec.ofBool s.kv
      ∧ (statusWord s).extractLsb' 1 1 = BitVec.ofBool (svAll s)
      ∧ (statusWord s).extractLsb' 2 2 = 0 ∧ (statusWord s).extractLsb' 4 4 = s.last
      ∧ (statusWord s).extractLsb' 8 24 = 0 := by
  rw [statusWord, ← BitVec.shiftLeft_zero ((BitVec.ofBool s.kv).setWidth 32)]
  simp (disch := omega) only [BitVec.extractLsb'_or, extractLsb'_shifted_same,
    extractLsb'_shifted_other]
  simp

/-- A field of one bit that holds a flag: the bit is the flag. -/
theorem getLsbD_of_extractLsb'_eq_ofBool {w : Word} {k : Nat} {b : Bool}
    (h : w.extractLsb' k 1 = BitVec.ofBool b) : w.getLsbD k = b := by
  have hbit := congrArg (BitVec.getLsbD · 0) h
  simpa using hbit

/-- Settles O18: STATUS by its fields, SVMASK is SV itself, and RDSTAT's row fixes every bit of CW. -/
theorem rdstatReturnsStatus : Obligations.RdstatReturnsStatus := by
  have hrow : ⟨.rdstat, 0x00000009#32, 0xFFFFFFFF#32⟩ ∈ opTable := by decide
  refine ⟨fun s => ?_, decode_ok_iff_of_word hrow rfl fun _ _ => rfl, decode_illegal_of_ne_word hrow⟩
  obtain ⟨hkv, hall, hlow, hlast, hhigh⟩ := statusWord_fields s
  refine ⟨statusWord s, svMask s, getLsbD_of_extractLsb'_eq_ofBool hkv, ?_, hlow, hlast, hhigh,
    fun _ => rfl, ?_⟩
  · rw [getLsbD_of_extractLsb'_eq_ofBool hall, svAll_iff]
  · rw [exec, execRdstat, respond, List.length_append, bytesBE32_length, bytesBE32_length,
      responseWord_rdstat]

end Sys2Proof.Machine
end

section
/-! SUPPORT. Which code a command ends with (60_exceptions.md R200 to R208): its checks in their order, and
that a command that fails one does nothing but raise its code. -/

namespace Sys2Proof.Machine

/-! ## The checks -/

/-- The length and readiness checks of a decoded command: the code of the first that fails (R208). -/
def checkCode (i : Instr) (s : State) : Code :=
  match i with
  | .ldkey p => if p.length ≠ 32 then .invalidKeyLength else .ok
  | .derenc | .derdec => if s.kv = false then .noKey else .ok
  | .rdsched j => if schedValid s j = false then .scheduleUnset else .ok
  | .xform p =>
    if p.length ≠ 8 then .invalidBlockLength
    else if svAll s = false then .scheduleUnset
    else .ok
  | .nop | .wrsched _ _ | .subst _ | .rotl11 _ | .rdstat => .ok

/-- All the checks of the latched command, legality first (R203, R208). -/
def latchedCode (s : State) : Code :=
  match lookup s.cw with
  | none => .illegalCommand
  | some op => checkCode (assemble op s.cw s.payload) s

/-! ## The check decides the ending -/

/-- The command `op` has led from `s` to `t` as the code `c` of its checks asks: with code 0, or by
raising `c` in `s` (R207). -/
def EndsWith (c : Code) (op : Nibble) (s t : State) : Prop :=
  if c = .ok then rwCode t.rw = 0 else raise c op s = .next t

theorem EndsWith.of_raise {c : Code} {op : Nibble} {s t : State} (hc : c ≠ .ok)
    (h : raise c op s = .next t) : EndsWith c op s t := by
  rwa [EndsWith, if_neg hc]

theorem EndsWith.of_finish {op op' : Nibble} {r : List Byte} {s u t : State}
    (h : finish op r u = .next t) : EndsWith .ok op' s t := by
  cases h
  exact rwCode_responseWord ..

theorem EndsWith.rwCode_eq {c : Code} {op : Nibble} {s t : State} (h : EndsWith c op s t) :
    rwCode t.rw = codeBits c := by
  unfold EndsWith at h
  split at h
  case isTrue hc => exact h.trans ((codeBits_eq_zero_iff c).mpr hc).symm
  case isFalse =>
    cases h
    exact rwCode_responseWord ..

/-- A failure, written out: LAST and the response are all that changes (R207, R209). -/
theorem EndsWith.eq_of_rwCode_ne_zero {c : Code} {op : Nibble} {s t : State}
    (h : EndsWith c op s t) (hcode : rwCode t.rw ≠ 0) :
    t = { s with last := rwCode t.rw, rw := 0#24 ++ op ++ rwCode t.rw, result := [] } := by
  have hbits := h.rwCode_eq
  have hc : c ≠ .ok := fun h0 => hcode (hbits.trans ((codeBits_eq_zero_iff c).mpr h0))
  rw [EndsWith, if_neg hc, raise_eq, responseWord_zero, ← hbits] at h
  exact (Host.Outcome.next.inj h).symm

/-- Each meaning makes the checks of R208 and no other. -/
theorem endsWith_of_exec {i : Instr} {s t : State} (h : exec i s = .next t) :
    EndsWith (checkCode i s) i.op.code s t := by
  cases i with
  | nop | wrsched j w | subst w | rotl11 w => exact .of_finish h
  | ldkey p =>
    simp only [exec, execLdkey, checkCode] at h ⊢
    split_ifs at h ⊢
    · exact .of_raise (by decide) h
    · exact .of_finish h
  | derenc | derdec =>
    simp only [exec, execDerenc, execDerdec, derive, checkCode] at h ⊢
    split_ifs at h ⊢
    · exact .of_raise (by decide) h
    · exact .of_finish h
  | rdsched j =>
    simp only [exec, execRdsched, checkCode] at h ⊢
    split_ifs at h ⊢
    · exact .of_raise (by decide) h
    · exact .of_finish h
  | xform p =>
    simp only [exec, execXform, checkCode] at h ⊢
    split_ifs at h ⊢
    · exact .of_raise (by decide) h
    · exact .of_raise (by decide) h
    · exact .of_finish h
  | rdstat =>
    cases h
    exact rwCode_responseWord ..

/-- `endsWith_of_exec` for the command that stands latched, IllegalCommand included (R203). -/
theorem endsWith_of_runLatched {s t : State} (h : runLatched s = .next t) :
    EndsWith (latchedCode s) (cwOp s.cw) s t := by
  unfold latchedCode
  cases hl : lookup s.cw with
  | none =>
    rw [runLatched_of_lookup_none hl] at h
    exact .of_raise (c := .illegalCommand) (by decide) h
  | some op =>
    have hlen : s.payload.length = cwLen s.cw := by
      by_contra hlen
      simp [runLatched, decode, hl, hlen] at h
    rw [runLatched_of_lookup_some hl hlen] at h
    have hend := endsWith_of_exec h
    rwa [op_assemble, op_code_of_lookup hl] at hend

/-! ## Failure and code -/

/-- Settles O28: a nonzero code is a check's, and the command has done nothing but raise it. -/
theorem errorWritesOnlyLast : Obligations.ErrorWritesOnlyLast :=
  fun _ _ _ h hcode => (endsWith_of_runLatched h).eq_of_rwCode_ne_zero hcode

/-- The checks of a legal word, told by its OP (R208). -/
theorem codeBits_checkCode_assemble (op : Op) (cw : Word) (p : List Byte) (s : State) :
    codeBits (checkCode (assemble op cw p) s) =
      (if op.code = 1 ∧ p.length ≠ 32 then 1
      else if op.code = 6 ∧ p.length ≠ 8 then 2
      else if (op.code = 2 ∨ op.code = 3) ∧ s.kv = false then 4
      else if op.code = 5 ∧ s.sv.getLsbD (cw.extractLsb' 8 5).toNat = false then 5
      else if op.code = 6 ∧ s.sv ≠ BitVec.allOnes 32 then 5
      else 0) := by
  cases op with
  | nop | wrsched | subst | rotl11 | rdstat => rfl
  | ldkey | derenc | derdec =>
    simp only [assemble, checkCode, apply_ite codeBits]
    simp [Op.code, codeBits]
  | rdsched =>
    have hvalid : schedValid s (cwIdx cw) = s.sv.getLsbD (cw.extractLsb' 8 5).toNat := rfl
    simp only [assemble, checkCode, apply_ite codeBits, hvalid]
    simp [Op.code, codeBits]
  | xform =>
    simp only [assemble, checkCode, apply_ite codeBits]
    simp [Op.code, codeBits, svAll]

/-- Settles O30: an illegal word fails the first check, and a legal one those of its OP. -/
theorem codeFollowsCheckOrder : Obligations.CodeFollowsCheckOrder := by
  intro c s hlen
  obtain ⟨t, ht⟩ := exists_runLatched (s := latch c s) hlen
  refine ⟨t, ht, (endsWith_of_runLatched ht).rwCode_eq.trans ?_⟩
  rw [latchedCode, latch_cw, latch_payload]
  cases hl : lookup c.cw with
  | none => exact (if_pos ((lookup_none_iff c.cw).mp hl)).symm
  | some op =>
    have hlegal : ¬ ∀ r ∈ opTable, c.cw &&& r.mask ≠ r.mtch := by
      rw [← lookup_none_iff, hl]
      exact Option.some_ne_none op
    have hop : op.code = c.cw.extractLsb' 0 4 := op_code_of_lookup hl
    rw [if_neg hlegal, ← hop]
    exact codeBits_checkCode_assemble op c.cw c.payload (latch c s)

end Sys2Proof.Machine
end

section
/-! SUPPORT. Reset and hazards (70_reset_and_hazards.md): no run without a reset (R231), and a time in EXEC
that tells nothing of key or data (R240). -/

namespace Sys2Proof.Machine

/-- Settles O47: of the checks of an edge without rst, that of R231 comes first. -/
theorem runBeforeResetIsRefused : Obligations.RunBeforeResetIsRefused := by
  intro s hstarted hr
  simp [step, edge, hr, hstarted]

/-- The last transfer of `c` leaves `c` latched and enters EXEC (R86). -/
theorem afterTransfers_of_takesLast {s : State} {c : Command} (h : TakesLast s c) :
    afterTransfers s = enterExec (latch c (noted s)) := by
  obtain ⟨hp, b, hb, rfl⟩ | ⟨hp, hw, hlen, hpayload⟩ := h
  · have hp' : (noted s).phase = .payload 1 := hp
    rw [afterTransfers, advance_payload _ hp', hb]
    rfl
  · have hp' : (noted s).phase = .idle := hp
    rw [afterTransfers, advance_idle _ hp', hw]
    simp [takeCommand, hlen, awaitPayload, latch, hpayload]

/-- EXEC is entered for as many cycles as the parameters, OP and success give (R239, R240). -/
theorem phase_afterTransfers_of_takesLast {s : State} {c : Command} (h : TakesLast s c) :
    (afterTransfers s).phase = .exec (s.cfg.execCycles (cwOp c.cw) (succeeds (latch c s))) := by
  have hsucc : succeeds (latch c (noted s)) = succeeds (latch c s) := succeeds_congr rfl rfl rfl rfl
  rw [afterTransfers_of_takesLast h, enterExec_phase, hsucc]
  rfl

/-- Settles O56: the phase entered is a function of the parameters, OP and success. -/
theorem execTimeIsIndependentOfData : Obligations.ExecTimeIsIndependentOfData := by
  intro s s' t t' c c' hcfg hr hr' hlast hlast' hop hsucc h h'
  have hop' : cwOp c.cw = cwOp c'.cw := hop
  rw [phase_of_step hr h, phase_of_step hr' h', phase_afterTransfers_of_takesLast hlast,
    phase_afterTransfers_of_takesLast hlast', hcfg, hop', hsucc]

end Sys2Proof.Machine
end
